-- ==== Sys2Proof/Word.lean ====
section
/-! DEFINITION. The bit-vector types of the block: bytes, 16-bit words and the 56-bit request word (00_scope.md R12, 30_encoding.md R60). -/

namespace Sys2Proof

/-- `u8` of R12: a data byte, a checksum, the accumulator CRC_ACC. -/
abbrev Byte := BitVec 8

/-- `u16` and `s16` of R12: RESULT, a raw word, a sensor command word. -/
abbrev Half := BitVec 16

/-- One request word `REQ[55:0]` (R60). -/
abbrev Req := BitVec 56

end Sys2Proof
end

