-- ==== Sys2Proof/Syntax.lean ====
section
/-! DEFINITION. The abstract syntax: one constructor per row of spec/opcode_table.json. -/

namespace Sys2Proof

/-- The eight requests of the block (30_encoding.md R62), each with exactly the operands its row reads, and the six
sensor command words the host sends past the block (30_encoding.md R80 to R86). `len` is the byte count of R63, a
number, because the spec compares it with 6 and 3 and never treats it as bits. -/
inductive Instr where
  /-- CRC_INIT (40_crc.md R104). -/
  | crcInit
  /-- CRC_FEED (40_crc.md R105). -/
  | crcFeed (d0 : Byte)
  /-- CRC_WORD (40_crc.md R106). -/
  | crcWord (d0 d1 : Byte)
  /-- CRC_CHECK (40_crc.md R107). -/
  | crcCheck (d0 d1 d2 : Byte)
  /-- MEAS_LOAD (41_convert.md R124). -/
  | measLoad (len : Nat) (d0 d1 d2 d3 d4 d5 : Byte)
  /-- TEMP_GET (41_convert.md R125). -/
  | tempGet
  /-- HUM_GET (41_convert.md R126). -/
  | humGet
  /-- STATUS_GET (41_convert.md R127). -/
  | statusGet (len : Nat) (d0 d1 d2 : Byte)
  /-- The sensor's Reset command word (30_encoding.md R81). -/
  | sensorReset
  /-- The sensor's ReadStatus command word (30_encoding.md R82). -/
  | sensorReadStatus
  /-- The sensor's ClearStatus command word (30_encoding.md R83). -/
  | sensorClearStatus
  /-- The sensor's Measure command word (30_encoding.md R84). -/
  | sensorMeasure
  /-- The sensor's Heater-on command word (30_encoding.md R85). -/
  | sensorHeaterOn
  /-- The sensor's Heater-off command word (30_encoding.md R86). -/
  | sensorHeaterOff
deriving DecidableEq, Repr

/-- The row of spec/opcode_table.json an instruction belongs to, by its mnemonic. -/
def Instr.mnemonic : Instr → String
  | .crcInit => "CRC_INIT"
  | .crcFeed _ => "CRC_FEED"
  | .crcWord _ _ => "CRC_WORD"
  | .crcCheck _ _ _ => "CRC_CHECK"
  | .measLoad _ _ _ _ _ _ _ => "MEAS_LOAD"
  | .tempGet => "TEMP_GET"
  | .humGet => "HUM_GET"
  | .statusGet _ _ _ _ => "STATUS_GET"
  | .sensorReset => "SENSOR_RESET"
  | .sensorReadStatus => "SENSOR_READ_STATUS"
  | .sensorClearStatus => "SENSOR_CLEAR_STATUS"
  | .sensorMeasure => "SENSOR_MEASURE"
  | .sensorHeaterOn => "SENSOR_HEATER_ON"
  | .sensorHeaterOff => "SENSOR_HEATER_OFF"

/-- The six rows of format SENSOR_CMD16: "The block neither sends nor decodes these words" (30_encoding.md R80). -/
def Instr.isSensorCommand : Instr → Bool
  | .crcInit => false
  | .crcFeed _ => false
  | .crcWord _ _ => false
  | .crcCheck _ _ _ => false
  | .measLoad _ _ _ _ _ _ _ => false
  | .tempGet => false
  | .humGet => false
  | .statusGet _ _ _ _ => false
  | .sensorReset => true
  | .sensorReadStatus => true
  | .sensorClearStatus => true
  | .sensorMeasure => true
  | .sensorHeaterOn => true
  | .sensorHeaterOff => true

end Sys2Proof
end

