-- ==== Sys2Proof/WellFormed.lean ====
section
/-! DEFINITION. Which instructions an encoding exists for: the count `len` fits its 3-bit field (30_encoding.md R63). Every other operand is bounded by its type. -/

namespace Sys2Proof

/-- "The len field is a 3-bit unsigned count ... in 0..7" (R63). -/
def lenFits (len : Nat) : Bool := decide (len ≤ 7)

/-- A well-formed instruction is one that some request word or sensor command word stands for. -/
def Instr.wellFormed : Instr → Bool
  | .crcInit => true
  | .crcFeed _ => true
  | .crcWord _ _ => true
  | .crcCheck _ _ _ => true
  | .measLoad len _ _ _ _ _ _ => lenFits len
  | .tempGet => true
  | .humGet => true
  | .statusGet len _ _ _ => lenFits len
  | .sensorReset => true
  | .sensorReadStatus => true
  | .sensorClearStatus => true
  | .sensorMeasure => true
  | .sensorHeaterOn => true
  | .sensorHeaterOff => true

end Sys2Proof
end

