-- ==== Sys2Proof/Decode.lean ====
section
/-! DEFINITION. The request encoding of 30_encoding.md: fields, a total decoder that rejects by name, the encoder, and the opcode table as match and mask. -/

namespace Sys2Proof

/-- Why a word is no instruction. -/
inductive DecodeError where
  /-- `REQ[48] = 1` (R67). -/
  | reservedBit
  /-- An op code of {0x0, 0x9 .. 0xF} (R66). -/
  | reservedOp (op : BitVec 4)
  /-- A 16-bit word that is none of the six sensor command words (R81 to R86). -/
  | unknownCommand (word : Half)
  /-- A byte string that is neither a 7-byte request (R60) nor a 2-byte command word (R80). -/
  | noSuchLength (bytes : Nat)
deriving DecidableEq, Repr

/-- What the host puts on a wire: a request word on the block's port, or a command word on the sensor's bus. -/
inductive Packet where
  /-- `REQ[55:0]` (R60). -/
  | request (word : Req)
  /-- A sensor command word, `cmd[15:0]` (R80). -/
  | command (word : Half)
deriving DecidableEq, Repr

/-! ## Fields of REQ56 (R61) -/

/-- `op = REQ[55:52]`. -/
def reqOp (w : Req) : BitVec 4 := w.extractLsb' 52 4

/-- `len = REQ[51:49]`. -/
def reqLen (w : Req) : BitVec 3 := w.extractLsb' 49 3

/-- `rsv = REQ[48]`. -/
def reqRsv (w : Req) : Bool := w.getLsbD 48

/-- `d[i] = REQ[47 - 8*i : 40 - 8*i]` for `i` in 0..5. -/
def reqLane (w : Req) (i : Nat) : Byte := w.extractLsb' (40 - 8 * i) 8

/-! ## Decoding (R62, R69) -/

/-- R69's order: first `REQ[48]`, then the op map of R62. The error cases are the ILLEGAL_OP words. -/
def decodeRequest (w : Req) : Except DecodeError Instr :=
  if reqRsv w then .error .reservedBit
  else match reqOp w with
    | 0x1#4 => .ok .crcInit
    | 0x2#4 => .ok (.crcFeed (reqLane w 0))
    | 0x3#4 => .ok (.crcWord (reqLane w 0) (reqLane w 1))
    | 0x4#4 => .ok (.crcCheck (reqLane w 0) (reqLane w 1) (reqLane w 2))
    | 0x5#4 => .ok (.measLoad (reqLen w).toNat (reqLane w 0) (reqLane w 1) (reqLane w 2) (reqLane w 3) (reqLane w 4)
        (reqLane w 5))
    | 0x6#4 => .ok .tempGet
    | 0x7#4 => .ok .humGet
    | 0x8#4 => .ok (.statusGet (reqLen w).toNat (reqLane w 0) (reqLane w 1) (reqLane w 2))
    | op => .error (.reservedOp op)

/-- The sensor command words (R81 to R86). -/
def decodeCommand (w : Half) : Except DecodeError Instr :=
  match w with
  | 0x30A2#16 => .ok .sensorReset
  | 0xF32D#16 => .ok .sensorReadStatus
  | 0x3041#16 => .ok .sensorClearStatus
  | 0x2400#16 => .ok .sensorMeasure
  | 0x306D#16 => .ok .sensorHeaterOn
  | 0x3066#16 => .ok .sensorHeaterOff
  | other => .error (.unknownCommand other)

/-- The decoder over both formats. -/
def decode : Packet → Except DecodeError Instr
  | .request w => decodeRequest w
  | .command w => decodeCommand w

/-! ## Bytes -/

/-- A request is seven bytes, the header byte first, then the lanes in order (R60). -/
def requestOfBytes (h d0 d1 d2 d3 d4 d5 : Byte) : Req := h ++ d0 ++ d1 ++ d2 ++ d3 ++ d4 ++ d5

/-- A command word is two bytes, "big-endian, MSB first" (R80). -/
def commandOfBytes (b0 b1 : Byte) : Half := b0 ++ b1

/-- The packet a byte string carries, by its length. -/
def packetOfBytes : List Byte → Except DecodeError Packet
  | [h, d0, d1, d2, d3, d4, d5] => .ok (.request (requestOfBytes h d0 d1 d2 d3 d4 d5))
  | [b0, b1] => .ok (.command (commandOfBytes b0 b1))
  | bs => .error (.noSuchLength bs.length)

/-- The decoder on any byte string. -/
def decodeBytes (bs : List Byte) : Except DecodeError Instr :=
  match packetOfBytes bs with
  | .ok p => decode p
  | .error e => .error e

/-! ## Encoding -/

/-- `H = op || len || rsv` (R61). -/
def headerByte (op : BitVec 4) (len : BitVec 3) (rsv : BitVec 1) : Byte := op ++ len ++ rsv

/-- A request word from its fields (R61). -/
def packReq (op : BitVec 4) (len : BitVec 3) (rsv : BitVec 1) (d0 d1 d2 d3 d4 d5 : Byte) : Req :=
  requestOfBytes (headerByte op len rsv) d0 d1 d2 d3 d4 d5

/-- The word of an instruction. A field its row does not read is 0, as in the examples of R104 to R107 and R124 to
R127 (R68 lets it be anything; log entry 11). -/
def encode : Instr → Packet
  | .crcInit => .request (packReq 0x1#4 0#3 0#1 0 0 0 0 0 0)
  | .crcFeed d0 => .request (packReq 0x2#4 0#3 0#1 d0 0 0 0 0 0)
  | .crcWord d0 d1 => .request (packReq 0x3#4 0#3 0#1 d0 d1 0 0 0 0)
  | .crcCheck d0 d1 d2 => .request (packReq 0x4#4 0#3 0#1 d0 d1 d2 0 0 0)
  | .measLoad len d0 d1 d2 d3 d4 d5 => .request (packReq 0x5#4 (BitVec.ofNat 3 len) 0#1 d0 d1 d2 d3 d4 d5)
  | .tempGet => .request (packReq 0x6#4 0#3 0#1 0 0 0 0 0 0)
  | .humGet => .request (packReq 0x7#4 0#3 0#1 0 0 0 0 0 0)
  | .statusGet len d0 d1 d2 => .request (packReq 0x8#4 (BitVec.ofNat 3 len) 0#1 d0 d1 d2 0 0 0)
  | .sensorReset => .command 0x30A2#16
  | .sensorReadStatus => .command 0xF32D#16
  | .sensorClearStatus => .command 0x3041#16
  | .sensorMeasure => .command 0x2400#16
  | .sensorHeaterOn => .command 0x306D#16
  | .sensorHeaterOff => .command 0x3066#16

/-- The bits of a request that its instruction reads, as a mask: op, rsv and the "operands read" of R62. The others are
the don't-care fields of R68. -/
def readMask : Instr → Req
  | .crcInit => 0xF1000000000000#56
  | .crcFeed _ => 0xF1FF0000000000#56
  | .crcWord _ _ => 0xF1FFFF00000000#56
  | .crcCheck _ _ _ => 0xF1FFFFFF000000#56
  | .measLoad _ _ _ _ _ _ _ => 0xFFFFFFFFFFFFFF#56
  | .tempGet => 0xF1000000000000#56
  | .humGet => 0xF1000000000000#56
  | .statusGet _ _ _ _ => 0xFFFFFFFF000000#56
  | .sensorReset => 0
  | .sensorReadStatus => 0
  | .sensorClearStatus => 0
  | .sensorMeasure => 0
  | .sensorHeaterOn => 0
  | .sensorHeaterOff => 0

/-! ## The opcode table as match and mask (R69, opcode_table.json) -/

/-- One row of spec/opcode_table.json. -/
structure OpRow where
  /-- The row's mnemonic. -/
  mnemonic : String
  /-- How many bits its words have: 56 or 16. -/
  bits : Nat
  /-- The row's mask. -/
  mask : Nat
  /-- The row's match. -/
  pattern : Nat
deriving DecidableEq, Repr

/-- The table, row by row. -/
def opcodeTable : List OpRow :=
  [ ⟨"CRC_INIT", 56, 0xF1000000000000, 0x10000000000000⟩,
    ⟨"CRC_FEED", 56, 0xF1000000000000, 0x20000000000000⟩,
    ⟨"CRC_WORD", 56, 0xF1000000000000, 0x30000000000000⟩,
    ⟨"CRC_CHECK", 56, 0xF1000000000000, 0x40000000000000⟩,
    ⟨"MEAS_LOAD", 56, 0xF1000000000000, 0x50000000000000⟩,
    ⟨"TEMP_GET", 56, 0xF1000000000000, 0x60000000000000⟩,
    ⟨"HUM_GET", 56, 0xF1000000000000, 0x70000000000000⟩,
    ⟨"STATUS_GET", 56, 0xF1000000000000, 0x80000000000000⟩,
    ⟨"SENSOR_RESET", 16, 0xFFFF, 0x30A2⟩,
    ⟨"SENSOR_READ_STATUS", 16, 0xFFFF, 0xF32D⟩,
    ⟨"SENSOR_CLEAR_STATUS", 16, 0xFFFF, 0x3041⟩,
    ⟨"SENSOR_MEASURE", 16, 0xFFFF, 0x2400⟩,
    ⟨"SENSOR_HEATER_ON", 16, 0xFFFF, 0x306D⟩,
    ⟨"SENSOR_HEATER_OFF", 16, 0xFFFF, 0x3066⟩ ]

/-- A row accepts a packet of its own width whose masked bits are its match. -/
def OpRow.accepts (r : OpRow) : Packet → Bool
  | .request w => decide (r.bits = 56) && decide (w &&& BitVec.ofNat 56 r.mask = BitVec.ofNat 56 r.pattern)
  | .command w => decide (r.bits = 16) && decide (w &&& BitVec.ofNat 16 r.mask = BitVec.ofNat 16 r.pattern)

/-! ## The host's view of a table word -/

/-- The packet of a table word of `nbits` bits: the 16-bit rows are sensor commands, the others requests (log entry 17). -/
def tablePacket (nbits w : Nat) : Packet :=
  if nbits ≤ 16 then .command (BitVec.ofNat 16 (w % 2 ^ nbits)) else .request (BitVec.ofNat 56 (w % 2 ^ nbits))

/-- The instruction the decoder reads from a table word. -/
def decodeTableWord (nbits w : Nat) : Option Instr :=
  match decode (tablePacket nbits w) with
  | .ok i => some i
  | .error _ => none

end Sys2Proof
end

