-- ==== Sys2Proof/Config.lean ====
section
/-! DEFINITION. What the spec leaves OPEN for an implementation: OP_LATENCY (00_scope.md R11), and nothing else. -/

namespace Sys2Proof.Config

/-- The free part of OP_LATENCY: any natural number (R11; log entry 5). It has no body, so no proof can see its value. -/
opaque opLatencyMinusOne : Nat

/-- OP_LATENCY, "a natural number >= 1 of block clock cycles, a model argument" (R11, R194). -/
def opLatency : Nat := opLatencyMinusOne + 1

end Sys2Proof.Config
end

