-- ==== Sys2Proof/Machine/State.lean ====
section
/-! DEFINITION. The state of the block (10_state.md R34), the host's side of its port, the faults and the refusals, and the state after reset. -/

namespace Sys2Proof.Machine

/-- `MEAS[0..5]`, "a file of six 8-bit registers holding the stored RawMeasurement" under the source's names (R23). -/
structure Meas where
  /-- `MEAS[0]`. -/
  temperatureMsb : Byte
  /-- `MEAS[1]`. -/
  temperatureLsb : Byte
  /-- `MEAS[2]`. -/
  temperatureCrc : Byte
  /-- `MEAS[3]`. -/
  humidityMsb : Byte
  /-- `MEAS[4]`. -/
  humidityLsb : Byte
  /-- `MEAS[5]`. -/
  humidityCrc : Byte
deriving DecidableEq, Repr

/-- A request that has been accepted and has not completed: the transfer `BUSY = 1` stands for (R31). -/
structure InFlight where
  /-- The accepted request word. -/
  req : Req
  /-- The clock cycles until its completion. -/
  cyclesLeft : Nat
deriving DecidableEq, Repr

/-- What the host can do to the block, in the order it does it (00_scope.md R8; log entries 1 and 4). -/
inductive HostEvent where
  /-- Assert `rst` (70_reset_and_hazards.md R180). -/
  | rst
  /-- Present a request and do nothing else until it completes: the one atomic step of R31 and R190. -/
  | request (word : Req)
  /-- Present a request and go on: the block is busy afterwards (R31). -/
  | present (word : Req)
  /-- Let one block clock cycle pass. -/
  | clock
  /-- Send the sensor a command word on the bus, which the block does not see (30_encoding.md R80). -/
  | sendCommand (word : Half)
deriving DecidableEq, Repr

/-- The model faults of 60_exceptions.md R158. Both are safe: the machine stops where the spec gives no meaning (log entry
14). -/
inductive Fault where
  /-- NOT_RESET: a request before the first reset. Raised by the port (R181). Safe. -/
  | notReset
  /-- HOST_OVERLAP: a request while `BUSY = 1`. Raised by the port (R187). Safe. -/
  | hostOverlap
deriving DecidableEq, Repr

/-- Refusals. No instruction of this model is refused. -/
inductive Refusal where
  /-- An instruction without a meaning yet, by its mnemonic; raised by no arm of `exec`. Safe. -/
  | notModelled (mnemonic : String)
deriving DecidableEq, Repr

/-- The registers of R34, and below them what the model keeps for the port: whether there has been a reset (R181), the
request in flight (R31), and what the host does next (R8). -/
structure State where
  /-- CRC_ACC (R22). -/
  crcAcc : Byte
  /-- MEAS[0..5] (R23). -/
  meas : Meas
  /-- RESULT (R26). -/
  result : Half
  /-- ERR (R27). -/
  err : Byte
  /-- BUSY (R31). -/
  busy : Bool
  /-- Whether `rst` has been asserted since power-on (R181; log entry 2). -/
  wasReset : Bool
  /-- The request accepted and not completed, if any (R31). -/
  inFlight : Option InFlight
  /-- The host's coming actions, the next one first (R8, R50). -/
  hostQueue : List HostEvent
deriving DecidableEq, Repr

/-- "all six bytes `0x00`" (R25). -/
def Meas.zero : Meas := ⟨0x00#8, 0x00#8, 0x00#8, 0x00#8, 0x00#8, 0x00#8⟩

/-- R180's reset values; the block is idle and waits for a request (R183), and no host action is given (log entries 2 and
19). -/
def State.reset : State where
  crcAcc := 0xFF#8
  meas := Meas.zero
  result := 0x0000#16
  err := 0x00#8
  busy := false
  wasReset := true
  inFlight := none
  hostQueue := []

/-- What the host reads: RESULT, ERR, CRC_ACC and BUSY, and not MEAS (00_scope.md R8, 10_state.md R24). -/
structure HostOutputs where
  /-- RESULT. -/
  result : Half
  /-- ERR. -/
  err : Byte
  /-- CRC_ACC. -/
  crcAcc : Byte
  /-- BUSY. -/
  busy : Bool
deriving DecidableEq, Repr

/-- A host read of the outputs: a function of the state, so it changes nothing (20_memory.md R48; log entry
20). -/
def State.outputs (s : State) : HostOutputs := ⟨s.result, s.err, s.crcAcc, s.busy⟩

/-- What one step of this machine answers. -/
abbrev Result := Host.Outcome State Fault Refusal

end Sys2Proof.Machine
end

