-- ==== Sys2Proof/Machine/Checksum.lean ====
section
/-! DEFINITION. The checksum function, 40_crc.md section 1: `crc_step`, `crc_byte`, `crc8` and `crc_ok`. -/

namespace Sys2Proof.Machine

/-- CRC_POLY (00_scope.md R10). -/
def crcPoly : BitVec 9 := 0x031#9

/-- CRC_INIT, the initial value of the accumulator (00_scope.md R10). -/
def crcInitial : Byte := 0xFF#8

/-- R100: the top bit is tested before the shift; the 9-bit shift is truncated to 8 bits. -/
def crcStep (a : Byte) : Byte :=
  if a.getLsbD 7 then ((a.setWidth 9 <<< 1) ^^^ crcPoly).setWidth 8 else (a.setWidth 9 <<< 1).setWidth 8

/-- `crc_step^8` (R103(c)). -/
def crcStep8 (a : Byte) : Byte := crcStep (crcStep (crcStep (crcStep (crcStep (crcStep (crcStep (crcStep a)))))))

/-- R101: XOR the byte in, then eight bit steps. -/
def crcByte (a b : Byte) : Byte := crcStep8 (a ^^^ b)

/-- R102: the checksum of a byte sequence of any length, in sequence order. -/
def crc8 (bytes : List Byte) : Byte := bytes.foldl crcByte crcInitial

/-- R108: the validation predicate, over the two word bytes only, in wire order. -/
def crcOk (msb lsb c : Byte) : Bool := decide (crc8 [msb, lsb] = c)

end Sys2Proof.Machine
end

