-- ==== Sys2Proof/Machine/Conversion.lean ====
section
/-! DEFINITION. The conversion functions, 41_convert.md section 1, in exact integer arithmetic. -/

namespace Sys2Proof.Machine

/-- R120: `word(msb, lsb) = msb * 256 + lsb`, assembled as in 30_encoding.md R65; unsigned, big-endian. -/
def rawWord (msb lsb : Byte) : Half := (msb.setWidth 16 <<< 8) ||| lsb.setWidth 16

/-- R12's `floordiv(a, b)` for `b > 0`: Lean's `/` on `Int` rounds toward minus infinity there. -/
def floorDiv (a b : Int) : Int := a / b

/-- R121: `round_nearest(N, D) = floordiv(2*N + D, 2*D)`, for `D > 0`. -/
def roundNearest (n d : Int) : Int := floorDiv (2 * n + d) (2 * d)

/-- R122: the temperature in hundredths of a degree Celsius, from `-45 + 175 * raw / 65535` (R10; log entry
15). -/
def tempCenti (raw : Half) : Int := roundNearest (100 * (-45 * 65535 + 175 * (raw.toNat : Int))) 65535

/-- R123: the relative humidity in hundredths of a percent, from `100 * raw / 65535` (R10; log
entry 15). -/
def humCenti (raw : Half) : Int := roundNearest (100 * (100 * (raw.toNat : Int))) 65535

/-- `trunc_16` of a mathematical integer, as R125 and R126 write it to RESULT. -/
def toResult (v : Int) : Half := BitVec.ofInt 16 v

end Sys2Proof.Machine
end

