-- ==== Sys2Proof/Machine/Flags.lean ====
section
/-! DEFINITION. The block's status bits: the fields of ERR (10_state.md R27 to R29) and the match bit RESULT[8] (40_crc.md R107). It has no condition codes (R30). -/

namespace Sys2Proof.Machine

/-- The kinds of outcome `ERR.CODE` names (R28). -/
inductive ErrCode where
  /-- OK. -/
  | ok
  /-- CHECKSUM_MISMATCH. -/
  | checksumMismatch
  /-- BUS_READ. -/
  | busRead
  /-- ILLEGAL_OP. -/
  | illegalOp
deriving DecidableEq, Repr

/-- The fields `ERR.FIELD` names (R29). -/
inductive ErrField where
  /-- No field. -/
  | none
  /-- The status word. -/
  | status
  /-- The temperature word. -/
  | temperature
  /-- The humidity word. -/
  | humidity
deriving DecidableEq, Repr

/-- The values of `ERR.CODE` (R28). -/
def errCodeBits : ErrCode → BitVec 2
  | .ok => 0
  | .checksumMismatch => 1
  | .busRead => 2
  | .illegalOp => 3

/-- The values of `ERR.FIELD` (R29). -/
def errFieldBits : ErrField → BitVec 2
  | .none => 0
  | .status => 1
  | .temperature => 2
  | .humidity => 3

/-- ERR from its fields: `ERR[7:4] = 0`, `ERR.FIELD = ERR[3:2]`, `ERR.CODE = ERR[1:0]` (R27). -/
def errWord (code : ErrCode) (field : ErrField) : Byte := 0#4 ++ errFieldBits field ++ errCodeBits code

/-- `ERR.CODE = ERR[1:0]` (R27). -/
def errCodeOf (e : Byte) : BitVec 2 := e.extractLsb' 0 2

/-- `ERR.FIELD = ERR[3:2]` (R27). -/
def errFieldOf (e : Byte) : BitVec 2 := e.extractLsb' 2 2

/-- `ERR[7:4]`, "reserved, reads 0 and is never written non-zero" (R27). -/
def errReservedOf (e : Byte) : BitVec 4 := e.extractLsb' 4 4

/-- R107's RESULT: `zext_16(m) << 8 | zext_16(c)`. -/
def checkResult (m : Bool) (c : Byte) : Half := ((BitVec.ofBool m).setWidth 16 <<< 8) ||| c.setWidth 16

end Sys2Proof.Machine
end

