-- ==== Sys2Proof/Machine/Ops.lean ====
section
/-! DEFINITION. The named operations on the block's registers, and the two ways an operation ends: `complete` and `raise Err` (00_scope.md R15). -/

namespace Sys2Proof.Machine

/-- `CRC_ACC <- v` (R14, R22). -/
def State.writeCrcAcc (v : Byte) (s : State) : State := { s with crcAcc := v }

/-- `MEAS[i] <- d[i]` for all `i` at once (R24, R47). -/
def State.writeMeas (m : Meas) (s : State) : State := { s with meas := m }

/-- `RESULT <- v` (R26). -/
def State.writeResult (v : Half) (s : State) : State := { s with result := v }

/-- `ERR <- v`, all of it (R27). -/
def State.writeErr (v : Byte) (s : State) : State := { s with err := v }

/-- `complete(ERR.CODE = 0)`: the normal end, which writes `ERR <- 0x00` (R15). -/
def complete (s : State) : Result := .next (s.writeErr (errWord .ok .none))

/-- `raise Err(code, field)`: the block's only exception. It "saves no state, changes no mode and transfers no control"
(60_exceptions.md R159): ERR is written and nothing else (R15). There is no return from it (R160). -/
def raiseErr (code : ErrCode) (field : ErrField) (s : State) : Result := .next (s.writeErr (errWord code field))

/-- What a sensor command does to the block: "Neither is seen by the block, which keeps MEAS, CRC_ACC, RESULT and ERR"
(70_reset_and_hazards.md R186; log entry 9). -/
def unseen (s : State) : Result := .next s

end Sys2Proof.Machine
end

