-- ==== Sys2Proof/Machine/Operands.lean ====
section
/-! DEFINITION. The operand forms: the three 2+1 byte groups of 20_memory.md R41, the byte counts of 30_encoding.md R63, and the shared validate-then-convert access. -/

namespace Sys2Proof.Machine

/-- MEAS_BYTES (00_scope.md R10): the count MEAS_LOAD requires. -/
def measBytes : Nat := 6

/-- STATUS_BYTES (00_scope.md R10): the count STATUS_GET requires. -/
def statusBytes : Nat := 3

/-- A 16-bit word on the wire followed by its own checksum byte (20_memory.md R43). -/
structure Group where
  /-- The word's high byte. -/
  msb : Byte
  /-- The word's low byte. -/
  lsb : Byte
  /-- The received checksum. -/
  crc : Byte
deriving DecidableEq, Repr

/-- `MEAS[0..2]`, what TEMP_GET reads (R24). -/
def tempGroup (m : Meas) : Group := ⟨m.temperatureMsb, m.temperatureLsb, m.temperatureCrc⟩

/-- `MEAS[3..5]`, what HUM_GET reads (R24). -/
def humGroup (m : Meas) : Group := ⟨m.humidityMsb, m.humidityLsb, m.humidityCrc⟩

/-- Whether a group's checksum verifies (40_crc.md R108). -/
def Group.valid (g : Group) : Bool := crcOk g.msb g.lsb g.crc

/-- A group's raw word (41_convert.md R120). -/
def Group.raw (g : Group) : Half := rawWord g.msb g.lsb

/-- The validating access shared by R125, R126 and R127: on a mismatch raise CHECKSUM_MISMATCH for the field; otherwise
write RESULT with the converted word and complete. -/
def accessGroup (g : Group) (field : ErrField) (convert : Half → Half) (s : State) : Result :=
  if g.valid then complete (s.writeResult (convert g.raw)) else raiseErr .checksumMismatch field s

end Sys2Proof.Machine
end

