-- ==== Sys2Proof/Machine/Crc.lean ====
section
/-! DEFINITION. The checksum operations, 40_crc.md section 2. -/

namespace Sys2Proof.Machine

/-- CRC_INIT (R104): CRC_ACC and RESULT take the initial value. -/
def execCrcInit (s : State) : Result := complete ((s.writeCrcAcc crcInitial).writeResult (crcInitial.setWidth 16))

/-- CRC_FEED (R105): fold one byte into CRC_ACC. -/
def execCrcFeed (d0 : Byte) (s : State) : Result :=
  complete ((s.writeCrcAcc (crcByte s.crcAcc d0)).writeResult ((crcByte s.crcAcc d0).setWidth 16))

/-- CRC_WORD (R106): the checksum of one word; CRC_ACC takes no part. -/
def execCrcWord (d0 d1 : Byte) (s : State) : Result := complete (s.writeResult ((crc8 [d0, d1]).setWidth 16))

/-- CRC_CHECK (R107): compare; a mismatch is a result and not an error. -/
def execCrcCheck (d0 d1 d2 : Byte) (s : State) : Result :=
  complete (s.writeResult (checkResult (crcOk d0 d1 d2) (crc8 [d0, d1])))

end Sys2Proof.Machine
end

