-- ==== Sys2Proof/Machine/Measure.lean ====
section
/-! DEFINITION. The measurement buffer and the validating accessors, 41_convert.md section 2. -/

namespace Sys2Proof.Machine

/-- MEAS_LOAD (R124): all six bytes, or BUS_READ. No checksum is checked, and RESULT is unchanged. A count above
7 is no word (log entry 13). -/
def execMeasLoad (len : Nat) (d0 d1 d2 d3 d4 d5 : Byte) (s : State) : Result :=
  if len = measBytes then complete (s.writeMeas ⟨d0, d1, d2, d3, d4, d5⟩) else raiseErr .busRead .none s

/-- TEMP_GET (R125). -/
def execTempGet (s : State) : Result :=
  accessGroup (tempGroup s.meas) .temperature (fun raw => toResult (tempCenti raw)) s

/-- HUM_GET (R126). -/
def execHumGet (s : State) : Result :=
  accessGroup (humGroup s.meas) .humidity (fun raw => toResult (humCenti raw)) s

/-- STATUS_GET (R127): the count is checked before the bytes (60_exceptions.md R156); the word is returned uninterpreted
(R133) and nothing is stored (10_state.md R32). -/
def execStatusGet (len : Nat) (d0 d1 d2 : Byte) (s : State) : Result :=
  if len = statusBytes then accessGroup ⟨d0, d1, d2⟩ .status (fun raw => raw) s else raiseErr .busRead .none s

end Sys2Proof.Machine
end

