-- ==== Sys2Proof/Machine/Sensor.lean ====
section
/-! DEFINITION. The sensor's command words, 30_encoding.md section 6: the block keeps its state across each of them (70_reset_and_hazards.md R186; log entry 9). What the sensor does is outside the block (00_scope.md R5). -/

namespace Sys2Proof.Machine

/-- Reset, `0x30A2` (R81): "It has no effect on the block". -/
def execSensorReset (s : State) : Result := unseen s

/-- ReadStatus, `0xF32D` (R82): its response reaches the block only when the host passes it to STATUS_GET. -/
def execSensorReadStatus (s : State) : Result := unseen s

/-- ClearStatus, `0x3041` (R83). -/
def execSensorClearStatus (s : State) : Result := unseen s

/-- Measure, `0x2400` (R84): its response reaches the block only when the host passes it to MEAS_LOAD. -/
def execSensorMeasure (s : State) : Result := unseen s

/-- Heater on, `0x306D` (R85). -/
def execSensorHeaterOn (s : State) : Result := unseen s

/-- Heater off, `0x3066` (R86). -/
def execSensorHeaterOff (s : State) : Result := unseen s

end Sys2Proof.Machine
end

