-- ==== Sys2Proof/Machine/Dispatch.lean ====
section
/-! DEFINITION. One arm per instruction. -/

namespace Sys2Proof.Machine

def exec (i : Instr) (s : State) : Host.Outcome State Fault Refusal :=
  match i with
  | .crcInit => Sys2Proof.Machine.execCrcInit s
  | .crcFeed d0 => Sys2Proof.Machine.execCrcFeed d0 s
  | .crcWord d0 d1 => Sys2Proof.Machine.execCrcWord d0 d1 s
  | .crcCheck d0 d1 d2 => Sys2Proof.Machine.execCrcCheck d0 d1 d2 s
  | .measLoad len d0 d1 d2 d3 d4 d5 => Sys2Proof.Machine.execMeasLoad len d0 d1 d2 d3 d4 d5 s
  | .tempGet => Sys2Proof.Machine.execTempGet s
  | .humGet => Sys2Proof.Machine.execHumGet s
  | .statusGet len d0 d1 d2 => Sys2Proof.Machine.execStatusGet len d0 d1 d2 s
  | .sensorReset => Sys2Proof.Machine.execSensorReset s
  | .sensorReadStatus => Sys2Proof.Machine.execSensorReadStatus s
  | .sensorClearStatus => Sys2Proof.Machine.execSensorClearStatus s
  | .sensorMeasure => Sys2Proof.Machine.execSensorMeasure s
  | .sensorHeaterOn => Sys2Proof.Machine.execSensorHeaterOn s
  | .sensorHeaterOff => Sys2Proof.Machine.execSensorHeaterOff s

end Sys2Proof.Machine
end

