-- ==== Sys2Proof/Machine/Port.lean ====
section
/-! DEFINITION. The request port: accepting a request, running it, the clock, reset, and what each action of the host does (00_scope.md R8, 10_state.md R31, 70_reset_and_hazards.md). -/

namespace Sys2Proof.Machine

/-- What forbids a request now: NOT_RESET before the first reset (R181), HOST_OVERLAP while busy (R187). Before the
first reset BUSY is unspecified, so NOT_RESET is asked first (log entry 3). -/
def requestFault (s : State) : Option Fault :=
  if s.wasReset then (if s.busy then some .hostOverlap else none) else some .notReset

/-- A request from its word to its completion: the decoded operation, or ILLEGAL_OP for a reserved word (30_encoding.md
R66, R67; log entry 12). -/
def runRequest (w : Req) (s : State) : Result :=
  match decodeRequest w with
  | .ok i => exec i s
  | .error _ => raiseErr .illegalOp .none s

/-- Acceptance: BUSY becomes 1 and no other register changes until completion, OP_LATENCY cycles later (R31). -/
def acceptRequest (w : Req) (s : State) : State :=
  { s with busy := true, inFlight := some ⟨w, Config.opLatency⟩ }

/-- One block clock cycle: the request in flight comes one cycle nearer to its completion; at completion BUSY returns to
0 and all its writes take effect together (R31). With nothing in flight the block is idle (R183). Log
entries 8 and 16. -/
def clockCycle (s : State) : Result :=
  match s.inFlight with
  | none => .next s
  | some f =>
    if f.cyclesLeft ≤ 1 then runRequest f.req { s with busy := false, inFlight := none }
    else .next { s with inFlight := some { f with cyclesLeft := f.cyclesLeft - 1 } }

/-- `rst`: every register to its reset value in one step (R180), the request in flight abandoned (R182). What the host
does afterwards is the host's (log entry 7). -/
def applyReset (s : State) : State := { State.reset with hostQueue := s.hostQueue }

/-- A command word sent to the sensor: the block does not see it, whatever it is (R80; log entries 9 and 10). -/
def sendCommand (w : Half) (s : State) : Result :=
  match decodeCommand w with
  | .ok i => exec i s
  | .error _ => unseen s

/-- What one action of the host does. -/
def serve (e : HostEvent) (s : State) : Result :=
  match e with
  | .rst => .next (applyReset s)
  | .request w =>
    match requestFault s with
    | some f => .fault f
    | none => runRequest w s
  | .present w =>
    match requestFault s with
    | some f => .fault f
    | none => .next (acceptRequest w s)
  | .clock => clockCycle s
  | .sendCommand w => sendCommand w s

end Sys2Proof.Machine
end

