-- ==== Sys2Proof/Machine/Step.lean ====
section
/-! DEFINITION. One step: the host's next action, or, when the host does nothing, one clock cycle. -/

namespace Sys2Proof.Machine

/-- One step (log entries 1 and 6). -/
def step (s : State) : Host.Outcome State Fault Refusal :=
  match s.hostQueue with
  | [] => clockCycle s
  | e :: rest => serve e { s with hostQueue := rest }

/-- `s` with a table word as the host's next action, at an idle port after a reset, so that the very next step runs it
(log entries 1 and 17). -/
def State.withFetchWord (s : State) (nbits w : Nat) : State :=
  match tablePacket nbits w with
  | .request r =>
    { s with busy := false, wasReset := true, inFlight := none, hostQueue := .request r :: s.hostQueue }
  | .command c => { s with hostQueue := .sendCommand c :: s.hostQueue }

end Sys2Proof.Machine
end

