-- ==== Sys2Proof/Machine/Asm.lean ====
section
/-! DEFINITION. The assembler lines of 30_encoding.md section 5 as abstract syntax, and the request words each stands for (R72, R73). Notation only: the block never sees a line. -/

namespace Sys2Proof.Machine

/-- One line of assembly (R72), or one pseudo-instruction (R73). A `none` length is a line with no `.len=<n>` suffix. -/
inductive AsmLine where
  /-- `crc.init`. -/
  | crcInit
  /-- `crc.feed b`. -/
  | crcFeed (b : Byte)
  /-- `crc.word msb, lsb`. -/
  | crcWord (msb lsb : Byte)
  /-- `crc.check msb, lsb, c`. -/
  | crcCheck (msb lsb c : Byte)
  /-- `meas.load b0, ...` and `meas.load.len=n b0, ...`. -/
  | measLoad (len : Option Nat) (bytes : List Byte)
  /-- `temp.get`. -/
  | tempGet
  /-- `hum.get`. -/
  | humGet
  /-- `status.get msb, ...` and `status.get.len=n msb, ...`. -/
  | statusGet (len : Option Nat) (bytes : List Byte)
  /-- `.req 0x...`: the raw word, reserved ones included. -/
  | rawRequest (word : Req)
  /-- The pseudo-instruction `crc.bytes b1, ..., bk`. -/
  | crcBytes (bytes : List Byte)
  /-- The pseudo-instruction `meas.decode b0, ..., b5`. -/
  | measDecode (b0 b1 b2 b3 b4 b5 : Byte)
deriving DecidableEq, Repr

/-- Lane `i` of a line: its byte there, and "Unlisted lanes are 0" (R72; log entry 18). -/
def laneOf (bytes : List Byte) (i : Nat) : Byte := bytes.getD i 0

/-- "A request that lists `k` data bytes sets len to `k`, unless an explicit `.len=<n>` suffix ... sets len" (R72). -/
def lenOf (len : Option Nat) (bytes : List Byte) : Nat := len.getD bytes.length

/-- A line the syntax has: no more bytes than its operation has lanes, and n in 0..7 (R72). -/
def AsmLine.wellFormed : AsmLine → Bool
  | .crcInit => true
  | .crcFeed _ => true
  | .crcWord _ _ => true
  | .crcCheck _ _ _ => true
  | .measLoad len bytes => decide (bytes.length ≤ 6) && lenFits (lenOf len bytes)
  | .tempGet => true
  | .humGet => true
  | .statusGet len bytes => decide (bytes.length ≤ 3) && lenFits (lenOf len bytes)
  | .rawRequest _ => true
  | .crcBytes _ => true
  | .measDecode _ _ _ _ _ _ => true

/-- The packets a line stands for, in issue order. -/
def assemble : AsmLine → List Packet
  | .crcInit => [encode .crcInit]
  | .crcFeed b => [encode (.crcFeed b)]
  | .crcWord msb lsb => [encode (.crcWord msb lsb)]
  | .crcCheck msb lsb c => [encode (.crcCheck msb lsb c)]
  | .measLoad len bytes =>
    [encode (.measLoad (lenOf len bytes) (laneOf bytes 0) (laneOf bytes 1) (laneOf bytes 2) (laneOf bytes 3)
      (laneOf bytes 4) (laneOf bytes 5))]
  | .tempGet => [encode .tempGet]
  | .humGet => [encode .humGet]
  | .statusGet len bytes => [encode (.statusGet (lenOf len bytes) (laneOf bytes 0) (laneOf bytes 1) (laneOf bytes 2))]
  | .rawRequest w => [.request w]
  | .crcBytes bytes => encode .crcInit :: bytes.map (fun b => encode (.crcFeed b))
  | .measDecode b0 b1 b2 b3 b4 b5 =>
    [encode (.measLoad 6 b0 b1 b2 b3 b4 b5), encode .tempGet, encode .humGet]

/-- The host's action that issues a packet and waits for it. -/
def issue : Packet → HostEvent
  | .request w => .request w
  | .command w => .sendCommand w

end Sys2Proof.Machine
end

