-- ==== Sys2Proof/Safety.lean ====
section
/-! DEFINITION. What claims are stated in: a block ready for a request, the invariant, a host that keeps the protocol, the observation of a run, and what MEAS may not reveal. -/

namespace Sys2Proof.Machine

/-- The block has been reset and is idle: it "accepts the next request" (70_reset_and_hazards.md R183, R184). -/
structure Ready (s : State) : Prop where
  /-- There has been a reset (R181). -/
  wasReset : s.wasReset = true
  /-- `BUSY = 0` (R187). -/
  idle : s.busy = false
  /-- So nothing is in flight. -/
  nothingInFlight : s.inFlight = none

/-- The values ERR can hold: the six (CODE, FIELD) pairs of 60_exceptions.md R155, as 95_test_vectors.md writes them. -/
def legalErrs : List Byte := [0x00#8, 0x02#8, 0x03#8, 0x05#8, 0x09#8, 0x0D#8]

/-- The invariant every step keeps. Before the first reset nothing is said of a register (R181). -/
structure Inv (s : State) : Prop where
  /-- A request before the first reset is a fault, so none is in flight (R181). -/
  quietBeforeReset : s.wasReset = false → s.inFlight = none
  /-- BUSY is 1 exactly from acceptance to completion (R31). -/
  busyIsInFlight : s.wasReset = true → s.busy = s.inFlight.isSome
  /-- A request in flight completes at most OP_LATENCY cycles after its acceptance (R31). -/
  latencyBound : ∀ f, s.inFlight = some f → 1 ≤ f.cyclesLeft ∧ f.cyclesLeft ≤ Config.opLatency
  /-- ERR holds one of the outcomes of R155; so ERR[7:4] = 0 (R27), and FIELD is 0 unless CODE is 1 (R29). -/
  errLegal : s.wasReset = true → s.err ∈ legalErrs

/-- The cycles until the block is idle, 0 when it is. -/
def State.cyclesLeft (s : State) : Nat :=
  match s.inFlight with
  | none => 0
  | some f => f.cyclesLeft

/-- Whether a host's actions keep the protocol of 60_exceptions.md R158, from a block that has been reset or not and
is busy for `left` more cycles: no request before the first reset, none while busy. -/
def keepsProtocol : Bool → Nat → List HostEvent → Prop
  | _, _, [] => True
  | _, _, .rst :: es => keepsProtocol true 0 es
  | wasReset, left, .request _ :: es => wasReset = true ∧ left = 0 ∧ keepsProtocol wasReset 0 es
  | wasReset, left, .present _ :: es => wasReset = true ∧ left = 0 ∧ keepsProtocol wasReset Config.opLatency es
  | wasReset, left, .clock :: es => keepsProtocol wasReset (left - 1) es
  | wasReset, left, .sendCommand _ :: es => keepsProtocol wasReset left es

/-- `n` steps, stopping at the first fault: `Host.Core.run` of this machine (Laws/Port.lean proves the two equal). -/
def run : Nat → State → Result
  | 0, s => .next s
  | n + 1, s =>
    match step s with
    | .next t => run n t
    | .fault f => .fault f
    | .refused r => .refused r

/-- Whether the next step completes a request: one that the host waits for, or the last cycle of one in flight. -/
def completesRequest (s : State) : Bool :=
  match s.hostQueue with
  | .request _ :: _ => (requestFault s).isNone
  | [] | .clock :: _ =>
    match s.inFlight with
    | none => false
    | some f => decide (f.cyclesLeft ≤ 1)
  | .rst :: _ | .present _ :: _ | .sendCommand _ :: _ => false

/-- 00_scope.md R9: "the sequence of (RESULT, ERR) pairs, one per completed request", over the next `n` steps. -/
def observed : Nat → State → List (Half × Byte)
  | 0, _ => []
  | n + 1, s =>
    match step s with
    | .next t => (if completesRequest s then [(t.result, t.err)] else []) ++ observed n t
    | .fault _ => []
    | .refused _ => []

/-- The end of a run: "the state after the host's last request has completed (`BUSY = 0`)" (00_scope.md R9). -/
structure RunEnded (s : State) : Prop where
  /-- The block is reset and idle. -/
  ready : Ready s
  /-- The host has nothing left to do. -/
  hostDone : s.hostQueue = []

/-- The meanings of a list of instructions, one after the other: the sequential composition of 20_memory.md R50. -/
def execAll : List Instr → State → Result
  | [], s => .next s
  | i :: is, s =>
    match exec i s with
    | .next t => execAll is t
    | .fault f => .fault f
    | .refused r => .refused r

/-- Two states alike but for a measurement buffer whose two groups do not verify: what the host may not tell apart
("decoding must never be attempted on a RawMeasurement whose checksum does not verify", 41_convert.md R125). -/
structure AlikeButUnverified (s t : State) : Prop where
  /-- Every other field is the same. -/
  others : { t with meas := s.meas } = s
  /-- Each group is the same in both, or verifies in neither. -/
  temperature : tempGroup s.meas = tempGroup t.meas ∨ ((tempGroup s.meas).valid = false ∧ (tempGroup t.meas).valid = false)
  /-- Each group is the same in both, or verifies in neither. -/
  humidity : humGroup s.meas = humGroup t.meas ∨ ((humGroup s.meas).valid = false ∧ (humGroup t.meas).valid = false)

end Sys2Proof.Machine
end

