-- ==== Sys2Proof/Certificates/Slice0/Obligations.lean ====
section
/-! DEFINITION. The statements for the provers, from the numbered rules of spec/. Bit slices are written as the spec writes them, from the high bit down to the low. That a host issues a request by having it at the head of its queue, which loses it, is the model's form (log entry 1). -/

open Sys2Proof Sys2Proof.Machine

/-! ## Encoding -/

/-- Decoding the word of a well-formed instruction gives it back, every operand at every value (30_encoding.md R61, R62,
R81 to R86). The 0 in the don't-care fields is the model's choice (log entry 11). -/
def Obligations.DecodeUndoesEncode : Prop :=
  ∀ i : Instr, i.wellFormed = true → decode (encode i) = .ok i

/-- Encoding what was decoded gives the word back, with the fields its row does not read at 0 (R62, R68). -/
def Obligations.EncodeRestoresEveryReadField : Prop :=
  (∀ (w : Req) (i : Instr), decode (.request w) = .ok i → encode i = .request (w &&& readMask i)) ∧
  (∀ (w : Half) (i : Instr), decode (.command w) = .ok i → encode i = .command w)

/-- R68: any value of the fields an operation does not read gives the same outcome, and CRC_INIT, TEMP_GET and HUM_GET
take every value of len and of the lanes (3 + 48 = 51 free bits). -/
def Obligations.DontCareFieldsAreIgnored : Prop :=
  (∀ (s : State) (q : List HostEvent) (w w' : Req) (i : Instr), decodeRequest w = .ok i →
    w &&& readMask i = w' &&& readMask i →
    step { s with hostQueue := .request w' :: q } = step { s with hostQueue := .request w :: q }) ∧
  (∀ (len : BitVec 3) (d0 d1 d2 d3 d4 d5 : Byte),
    decodeRequest (packReq 0x1#4 len 0#1 d0 d1 d2 d3 d4 d5) = .ok .crcInit ∧
    decodeRequest (packReq 0x6#4 len 0#1 d0 d1 d2 d3 d4 d5) = .ok .tempGet ∧
    decodeRequest (packReq 0x7#4 len 0#1 d0 d1 d2 d3 d4 d5) = .ok .humGet)

/-- R69: every request word is exactly one assigned operation (`REQ[48] = 0` and op in 0x1 to 0x8), found by mask and
match, or ILLEGAL_OP; REQ[48] is asked first. -/
def Obligations.DecodingIsTotalAndUnique : Prop :=
  (∀ w : Req, (∃ i, decodeRequest w = .ok i) ↔
    (w.getLsbD 48 = false ∧ 1 ≤ (w.extractLsb 55 52).toNat ∧ (w.extractLsb 55 52).toNat ≤ 8)) ∧
  (∀ (w : Req) (op : BitVec 4), 1 ≤ op.toNat → op.toNat ≤ 8 →
    (w &&& 0xF1000000000000#56 = op.setWidth 56 <<< 52 ↔
      ∃ i, decodeRequest w = .ok i ∧ (opcodeTable.map OpRow.mnemonic)[op.toNat - 1]? = some i.mnemonic)) ∧
  (∀ w : Req, w.getLsbD 48 = true → decodeRequest w = .error .reservedBit) ∧
  (∀ (s : State) (w : Req) (q : List HostEvent), Ready s → s.hostQueue = .request w :: q →
    (∃ i, decodeRequest w = .ok i ∧ step s = exec i { s with hostQueue := q }) ∨
    ((∀ i, decodeRequest w ≠ .ok i) ∧ step s = .next { s with hostQueue := q, err := 0x03#8 }))

/-- Words written out from the encoding tables (30_encoding.md R61, R62, R81 to R86) decode to what they stand for. -/
def Obligations.WrittenWordsDecode : Prop :=
  decode (.request 0x20BE0000000000#56) = .ok (.crcFeed 0xBE#8) ∧
  decode (.request 0x40BEEF92000000#56) = .ok (.crcCheck 0xBE#8 0xEF#8 0x92#8) ∧
  decode (.request 0x5CDEAD98BEEF92#56) = .ok (.measLoad 6 0xDE#8 0xAD#8 0x98#8 0xBE#8 0xEF#8 0x92#8) ∧
  decode (.request 0x86000081000000#56) = .ok (.statusGet 3 0x00#8 0x00#8 0x81#8) ∧
  decode (.request 0x6EFFFFFFFFFFFF#56) = .ok .tempGet ∧
  decode (.request 0x5DDEAD98BEEF92#56) = .error .reservedBit ∧
  decode (.command 0x2400#16) = .ok .sensorMeasure

/-- A step of a ready block whose host issues a word that decodes to `i` is `exec i` once the host's action is taken off
its queue (00_scope.md R7, 20_memory.md R50). A sensor command word is sent past the request port, so it does the same in
any state, busy or never reset (30_encoding.md R80, 70_reset_and_hazards.md R186; that clause rests on log entry 9). -/
def Obligations.StepRunsTheDecodedInstruction : Prop :=
  (∀ (s : State) (w : Req) (q : List HostEvent) (i : Instr), Ready s → s.hostQueue = .request w :: q →
    decode (.request w) = .ok i → step s = exec i { s with hostQueue := q }) ∧
  (∀ (s : State) (w : Half) (q : List HostEvent) (i : Instr), s.hostQueue = .sendCommand w :: q →
    decode (.command w) = .ok i → step s = exec i { s with hostQueue := q })

/-- R66, R67: a reserved op code, or `REQ[48] = 1` with any op, writes ERR = 0x03 and nothing else. -/
def Obligations.ReservedRequestsReportIllegalOp : Prop :=
  ∀ (s : State) (w : Req) (q : List HostEvent), Ready s → s.hostQueue = .request w :: q →
    (w.getLsbD 48 = true ∨
      w.extractLsb 55 52 ∈ [0x0#4, 0x9#4, 0xA#4, 0xB#4, 0xC#4, 0xD#4, 0xE#4, 0xF#4]) →
    step s = .next { s with hostQueue := q, err := 0x03#8 }

/-! ## The checksum function -/

/-- R100, R101, R102, R108: the bit step on numbers, eight of them on the XORed byte, the recursion over the sequence, and
the predicate. -/
def Obligations.ChecksumFollowsItsDefinition : Prop :=
  (∀ a : Byte, (crcStep a).toNat = if 128 ≤ a.toNat then ((2 * a.toNat - 256) ^^^ 0x31) else 2 * a.toNat) ∧
  (∀ a b : Byte, crcByte a b = crcStep^[8] (a ^^^ b)) ∧
  crc8 [] = 0xFF#8 ∧
  (∀ (bytes : List Byte) (b : Byte), crc8 (bytes ++ [b]) = crcByte (crc8 bytes) b) ∧
  (∀ msb lsb c : Byte, crcOk msb lsb c = true ↔ crc8 [msb, lsb] = c)

/-- R109: the canonical vector. -/
def Obligations.CanonicalVectorHolds : Prop := crc8 [0xBE#8, 0xEF#8] = 0x92#8

/-- 40_crc.md R103(c): a byte enters only through `a ^ b`, by a transform linear over GF(2). -/
def Obligations.ByteTransformIsLinear : Prop :=
  (∀ a b : Byte, crcByte a b = crcByte 0 (a ^^^ b)) ∧
  (∀ x y : Byte, crcByte 0 (x ^^^ y) = crcByte 0 x ^^^ crcByte 0 y) ∧
  crcByte 0 0 = 0

/-- 40_crc.md R103(d): a sequence followed by its own checksum has checksum 0. -/
def Obligations.ResidueIsZero : Prop :=
  ∀ bytes : List Byte, crc8 (bytes ++ [crc8 bytes]) = 0x00#8

/-- 40_crc.md R103(e): for each msb the checksum is a bijection of the lsb, so each checksum belongs to one word for
each of the 256 msbs; and every change of one bit of a word changes its checksum. -/
def Obligations.WordChecksumSeparatesWords : Prop :=
  (∀ msb c : Byte, ∃ lsb : Byte, crc8 [msb, lsb] = c ∧ ∀ lsb' : Byte, crc8 [msb, lsb'] = c → lsb' = lsb) ∧
  (∀ (msb lsb : Byte) (n : Nat), n < 8 →
    crc8 [msb, lsb ^^^ (1#8 <<< n)] ≠ crc8 [msb, lsb] ∧ crc8 [msb ^^^ (1#8 <<< n), lsb] ≠ crc8 [msb, lsb])

/-! ## The checksum operations -/

/-- R104: CRC_INIT, as an operation and as every request word with op 0x1 and rsv 0. -/
def Obligations.CrcInitStartsAStream : Prop :=
  (∀ s : State, exec .crcInit s = .next { s with crcAcc := 0xFF#8, result := 0x00FF#16, err := 0x00#8 }) ∧
  (∀ (s : State) (w : Req) (q : List HostEvent), Ready s → s.hostQueue = .request w :: q →
    w.extractLsb 55 52 = 0x1#4 → w.getLsbD 48 = false →
    step s = .next { s with hostQueue := q, crcAcc := 0xFF#8, result := 0x00FF#16, err := 0x00#8 })

/-- R105: CRC_FEED folds d0 into CRC_ACC, as an operation and as every request word with op 0x2 and rsv 0; and CRC_INIT
followed by any feeds leaves the checksum of the bytes. -/
def Obligations.CrcFeedFoldsOneByte : Prop :=
  (∀ (s : State) (d0 : Byte), exec (.crcFeed d0) s = .next { s with
      crcAcc := crcByte s.crcAcc d0, result := 0x00#8 ++ crcByte s.crcAcc d0, err := 0x00#8 }) ∧
  (∀ (s : State) (w : Req) (q : List HostEvent), Ready s → s.hostQueue = .request w :: q →
    w.extractLsb 55 52 = 0x2#4 → w.getLsbD 48 = false →
    step s = .next { s with
      hostQueue := q, crcAcc := crcByte s.crcAcc (w.extractLsb 47 40),
      result := 0x00#8 ++ crcByte s.crcAcc (w.extractLsb 47 40), err := 0x00#8 }) ∧
  (∀ (s : State) (bytes : List Byte),
    execAll (.crcInit :: bytes.map .crcFeed) s = .next { s with
      crcAcc := crc8 bytes, result := 0x00#8 ++ crc8 bytes, err := 0x00#8 })

/-- R106: CRC_WORD, as an operation and as every request word with op 0x3 and rsv 0. -/
def Obligations.CrcWordAnswersTheChecksum : Prop :=
  (∀ (s : State) (d0 d1 : Byte), exec (.crcWord d0 d1) s = .next { s with
      result := 0x00#8 ++ crc8 [d0, d1], err := 0x00#8 }) ∧
  (∀ (s : State) (w : Req) (q : List HostEvent), Ready s → s.hostQueue = .request w :: q →
    w.extractLsb 55 52 = 0x3#4 → w.getLsbD 48 = false →
    step s = .next { s with
      hostQueue := q, result := 0x00#8 ++ crc8 [w.extractLsb 47 40, w.extractLsb 39 32], err := 0x00#8 })

/-- R107: CRC_CHECK answers RESULT[15:9] = 0, RESULT[8] = match and RESULT[7:0] = checksum, with ERR OK on a mismatch
too; as an operation and as every request word with op 0x4 and rsv 0. -/
def Obligations.CrcCheckAnswersTheMatchBit : Prop :=
  (∀ (s : State) (d0 d1 d2 : Byte), exec (.crcCheck d0 d1 d2) s = .next { s with
      result := 0#7 ++ BitVec.ofBool (decide (crc8 [d0, d1] = d2)) ++ crc8 [d0, d1], err := 0x00#8 }) ∧
  (∀ (s : State) (w : Req) (q : List HostEvent), Ready s → s.hostQueue = .request w :: q →
    w.extractLsb 55 52 = 0x4#4 → w.getLsbD 48 = false →
    step s = .next { s with
      hostQueue := q, err := 0x00#8,
      result := 0#7 ++ BitVec.ofBool (decide (crc8 [w.extractLsb 47 40, w.extractLsb 39 32] = w.extractLsb 31 24)) ++
        crc8 [w.extractLsb 47 40, w.extractLsb 39 32] })

/-! ## The measurement buffer and the accessors -/

/-- R124: MEAS_LOAD with len = 6 stores all six bytes, with any other len in 0..7 it reports BUS_READ and stores none; as an
operation and as every request word with op 0x5 and rsv 0. -/
def Obligations.MeasLoadStoresSixBytesOrNone : Prop :=
  (∀ (s : State) (d0 d1 d2 d3 d4 d5 : Byte), exec (.measLoad 6 d0 d1 d2 d3 d4 d5) s = .next { s with
      meas := ⟨d0, d1, d2, d3, d4, d5⟩, err := 0x00#8 }) ∧
  (∀ (s : State) (len : Nat) (d0 d1 d2 d3 d4 d5 : Byte), len ≤ 7 → len ≠ 6 →
    exec (.measLoad len d0 d1 d2 d3 d4 d5) s = .next { s with err := 0x02#8 }) ∧
  (∀ (s : State) (w : Req) (q : List HostEvent), Ready s → s.hostQueue = .request w :: q →
    w.extractLsb 55 52 = 0x5#4 → w.getLsbD 48 = false →
    step s = if w.extractLsb 51 49 = 6#3
      then .next { s with
        hostQueue := q, err := 0x00#8,
        meas := ⟨w.extractLsb 47 40, w.extractLsb 39 32, w.extractLsb 31 24, w.extractLsb 23 16, w.extractLsb 15 8,
          w.extractLsb 7 0⟩ }
      else .next { s with hostQueue := q, err := 0x02#8 })

/-- R125: TEMP_GET validates and converts MEAS[0..2]; as an operation and as every request word with op 0x6 and
rsv 0. -/
def Obligations.TempGetValidatesThenConverts : Prop :=
  (∀ s : State, crc8 [s.meas.temperatureMsb, s.meas.temperatureLsb] = s.meas.temperatureCrc →
    exec .tempGet s = .next { s with
      err := 0x00#8,
      result := BitVec.ofInt 16 (tempCenti (s.meas.temperatureMsb ++ s.meas.temperatureLsb)) }) ∧
  (∀ s : State, crc8 [s.meas.temperatureMsb, s.meas.temperatureLsb] ≠ s.meas.temperatureCrc →
    exec .tempGet s = .next { s with err := 0x09#8 }) ∧
  (∀ (s : State) (w : Req) (q : List HostEvent), Ready s → s.hostQueue = .request w :: q →
    w.extractLsb 55 52 = 0x6#4 → w.getLsbD 48 = false → step s = exec .tempGet { s with hostQueue := q })

/-- R126: HUM_GET validates and converts MEAS[3..5]; as an operation and as every request word with op 0x7 and rsv 0. -/
def Obligations.HumGetValidatesThenConverts : Prop :=
  (∀ s : State, crc8 [s.meas.humidityMsb, s.meas.humidityLsb] = s.meas.humidityCrc →
    exec .humGet s = .next { s with
      err := 0x00#8,
      result := BitVec.ofInt 16 (humCenti (s.meas.humidityMsb ++ s.meas.humidityLsb)) }) ∧
  (∀ s : State, crc8 [s.meas.humidityMsb, s.meas.humidityLsb] ≠ s.meas.humidityCrc →
    exec .humGet s = .next { s with err := 0x0D#8 }) ∧
  (∀ (s : State) (w : Req) (q : List HostEvent), Ready s → s.hostQueue = .request w :: q →
    w.extractLsb 55 52 = 0x7#4 → w.getLsbD 48 = false → step s = exec .humGet { s with hostQueue := q })

/-- R127: STATUS_GET checks the count (in 0..7), then the checksum, and returns the word as received; as an operation and as every
request word with op 0x8 and rsv 0. -/
def Obligations.StatusGetValidatesAndReturnsTheWord : Prop :=
  (∀ (s : State) (d0 d1 d2 : Byte), crc8 [d0, d1] = d2 →
    exec (.statusGet 3 d0 d1 d2) s = .next { s with result := d0 ++ d1, err := 0x00#8 }) ∧
  (∀ (s : State) (d0 d1 d2 : Byte), crc8 [d0, d1] ≠ d2 →
    exec (.statusGet 3 d0 d1 d2) s = .next { s with err := 0x05#8 }) ∧
  (∀ (s : State) (len : Nat) (d0 d1 d2 : Byte), len ≤ 7 → len ≠ 3 →
    exec (.statusGet len d0 d1 d2) s = .next { s with err := 0x02#8 }) ∧
  (∀ (s : State) (w : Req) (q : List HostEvent), Ready s → s.hostQueue = .request w :: q →
    w.extractLsb 55 52 = 0x8#4 → w.getLsbD 48 = false →
    step s = exec (.statusGet (w.extractLsb 51 49).toNat (w.extractLsb 47 40) (w.extractLsb 39 32) (w.extractLsb 31 24))
      { s with hostQueue := q })

/-- 70_reset_and_hazards.md R186, decision D23: no sensor command changes the block, in any state (log entry 9). -/
def Obligations.SensorCommandsLeaveTheBlockAlone : Prop :=
  (∀ s : State, exec .sensorReset s = .next s ∧ exec .sensorReadStatus s = .next s ∧
    exec .sensorClearStatus s = .next s ∧ exec .sensorMeasure s = .next s ∧
    exec .sensorHeaterOn s = .next s ∧ exec .sensorHeaterOff s = .next s) ∧
  (∀ (s : State) (w : Half) (q : List HostEvent), s.hostQueue = .sendCommand w :: q →
    w ∈ [0x30A2#16, 0xF32D#16, 0x3041#16, 0x2400#16, 0x306D#16, 0x3066#16] →
    step s = .next { s with hostQueue := q })

/-! ## Conversions -/

/-- R120, R65: the raw word is `msb * 256 + lsb`. -/
def Obligations.RawWordIsBigEndian : Prop :=
  ∀ msb lsb : Byte, (rawWord msb lsb).toNat = msb.toNat * 256 + lsb.toNat

/-- 41_convert.md R121: `round_nearest(N, D)` is the integer nearest to `N / D`, a tie going toward plus infinity. -/
def Obligations.RoundNearestIsTheNearestInteger : Prop :=
  ∀ n d q : Int, 0 < d → (roundNearest n d = q ↔ 2 * d * q - d ≤ 2 * n ∧ 2 * n < 2 * d * q + d)

/-- R122, R123: the two conversions on the raw number. -/
def Obligations.ConversionsFollowTheirFormulas : Prop :=
  ∀ raw : Half, tempCenti raw = roundNearest (17500 * (raw.toNat : Int) - 294907500) 65535 ∧
    humCenti raw = roundNearest (10000 * (raw.toNat : Int)) 65535

/-- R128: both conversions stay in their ranges, with the stated ends, and 16 bits hold each of them without loss. -/
def Obligations.ConversionsFitSixteenBits : Prop :=
  (∀ raw : Half, -4500 ≤ tempCenti raw ∧ tempCenti raw ≤ 13000 ∧ 0 ≤ humCenti raw ∧ humCenti raw ≤ 10000 ∧
    (BitVec.ofInt 16 (tempCenti raw)).toInt = tempCenti raw ∧
    ((BitVec.ofInt 16 (humCenti raw)).toNat : Int) = humCenti raw) ∧
  tempCenti 0#16 = -4500 ∧ tempCenti 65535#16 = 13000 ∧ humCenti 0#16 = 0 ∧ humCenti 65535#16 = 10000

/-- 41_convert.md R129: both conversions are non-decreasing and reach every value of their ranges, 17501 and 10001 of
them. -/
def Obligations.ConversionsAreMonotoneOntoTheirRanges : Prop :=
  (∀ raw raw' : Half, raw.toNat < raw'.toNat → tempCenti raw ≤ tempCenti raw' ∧ humCenti raw ≤ humCenti raw') ∧
  (∀ v : Int, -4500 ≤ v → v ≤ 13000 → ∃ raw : Half, tempCenti raw = v) ∧
  (∀ v : Int, 0 ≤ v → v ≤ 10000 → ∃ raw : Half, humCenti raw = v)

/-- 41_convert.md R130: no raw word is halfway between two results, so every integer within half a unit is the result. -/
def Obligations.NoConversionIsATie : Prop :=
  (∀ (raw : Half) (k : Int), 2 * (17500 * (raw.toNat : Int) - 294907500) ≠ 65535 * (2 * k + 1) ∧
    20000 * (raw.toNat : Int) ≠ 65535 * (2 * k + 1)) ∧
  (∀ (raw : Half) (q : Int), |2 * (17500 * (raw.toNat : Int) - 294907500) - 2 * 65535 * q| ≤ 65535 → q = tempCenti raw) ∧
  (∀ (raw : Half) (q : Int), |20000 * (raw.toNat : Int) - 2 * 65535 * q| ≤ 65535 → q = humCenti raw)

/-- R132: 32-bit two's complement arithmetic and one division by 131070 compute both conversions exactly. -/
def Obligations.ThirtyTwoBitsComputeTheConversions : Prop :=
  ∀ raw : Half,
    (-294907500 ≤ 17500 * (raw.toNat : Int) - 294907500 ∧ 17500 * (raw.toNat : Int) - 294907500 ≤ 851955000) ∧
    (-589749465 ≤ 2 * (17500 * (raw.toNat : Int) - 294907500) + 65535 ∧
      2 * (17500 * (raw.toNat : Int) - 294907500) + 65535 ≤ 1703975535) ∧
    2 * 10000 * (raw.toNat : Int) + 65535 ≤ 1310765535 ∧
    tempCenti raw = (2#32 * (17500#32 * raw.setWidth 32 - 294907500#32) + 65535#32).toInt / 131070 ∧
    humCenti raw = (2#32 * (10000#32 * raw.setWidth 32) + 65535#32).toInt / 131070

/-! ## What operations change and what they do not -/

/-- 10_state.md R22: CRC_INIT and CRC_FEED alone write CRC_ACC, and no operation but CRC_FEED reads it;
sensor commands are among the instructions (R186, log entry 9). -/
def Obligations.OnlyInitAndFeedTouchTheAccumulator : Prop :=
  (∀ (i : Instr) (s t : State), exec i s = .next t →
    t.crcAcc = s.crcAcc ∨ (i = .crcInit ∧ t.crcAcc = 0xFF#8) ∨ ∃ d0, i = .crcFeed d0 ∧ t.crcAcc = crcByte s.crcAcc d0) ∧
  (∀ (i : Instr) (s t : State) (a : Byte), (∀ d0, i ≠ .crcFeed d0) → exec i s = .next t →
    ∃ u, exec i { s with crcAcc := a } = .next u ∧ u.meas = t.meas ∧ u.result = t.result ∧ u.err = t.err)

/-- 10_state.md R24, 20_memory.md R47: MEAS_LOAD with six bytes replaces all of MEAS at once, and nothing else changes any
of it; sensor commands are among the instructions (R186, log entry 9). -/
def Obligations.OnlyAWholeLoadChangesMeas : Prop :=
  ∀ (i : Instr) (s t : State), exec i s = .next t →
    t.meas = s.meas ∨
      ∃ d0 d1 d2 d3 d4 d5, i = .measLoad 6 d0 d1 d2 d3 d4 d5 ∧ t.meas = ⟨d0, d1, d2, d3, d4, d5⟩

/-- No instruction changes BUSY, the reset mark, the request in flight or the host's queue: only the port does
(10_state.md R30, R31; for sensor commands R186, log entry 9). -/
def Obligations.InstructionsLeaveThePortAlone : Prop :=
  ∀ (i : Instr) (s : State), ∃ t, exec i s = .next t ∧
    t.busy = s.busy ∧ t.wasReset = s.wasReset ∧ t.inFlight = s.inFlight ∧ t.hostQueue = s.hostQueue

/-- R159: a request that ends in an error leaves CRC_ACC, MEAS and RESULT exactly as they were, and BUSY and the port. -/
def Obligations.AFailedRequestWritesErrAlone : Prop :=
  ∀ (s t : State) (w : Req) (q : List HostEvent), Ready s → s.hostQueue = .request w :: q → step s = .next t →
    t.err.extractLsb 1 0 ≠ 0#2 → t = { s with hostQueue := q, err := t.err }

/-- R155: the outcome table over every request word, the reserved ones too. No request word stands for a sensor command, so
the table has no row for one. -/
def Obligations.OutcomesFollowTheTable : Prop :=
  ∀ (s t : State) (w : Req) (q : List HostEvent), Ready s → s.hostQueue = .request w :: q → step s = .next t →
    match decodeRequest w with
    | .error _ => t.err = 0x03#8
    | .ok .crcInit | .ok (.crcFeed _) | .ok (.crcWord _ _) | .ok (.crcCheck _ _ _) => t.err = 0x00#8
    | .ok (.measLoad len _ _ _ _ _ _) => t.err = if len = 6 then 0x00#8 else 0x02#8
    | .ok .tempGet =>
      t.err = if crcOk s.meas.temperatureMsb s.meas.temperatureLsb s.meas.temperatureCrc then 0x00#8 else 0x09#8
    | .ok .humGet =>
      t.err = if crcOk s.meas.humidityMsb s.meas.humidityLsb s.meas.humidityCrc then 0x00#8 else 0x0D#8
    | .ok (.statusGet len d0 d1 d2) =>
      t.err = if len ≠ 3 then 0x02#8 else if crcOk d0 d1 d2 then 0x00#8 else 0x05#8
    | .ok .sensorReset | .ok .sensorReadStatus | .ok .sensorClearStatus | .ok .sensorMeasure | .ok .sensorHeaterOn
    | .ok .sensorHeaterOff => False

/-- R156: ILLEGAL_OP before BUS_READ before CHECKSUM_MISMATCH, on request words for which several apply. -/
def Obligations.ErrorsAreReportedByPriority : Prop :=
  (∀ (s : State) (w : Req) (q : List HostEvent), Ready s → s.hostQueue = .request w :: q → w.getLsbD 48 = true →
    step s = .next { s with hostQueue := q, err := 0x03#8 }) ∧
  (∀ (s : State) (w : Req) (q : List HostEvent), Ready s → s.hostQueue = .request w :: q →
    w.getLsbD 48 = false → w.extractLsb 55 52 = 0x8#4 → w.extractLsb 51 49 ≠ 3#3 →
    step s = .next { s with hostQueue := q, err := 0x02#8 })

/-- 10_state.md R27, 60_exceptions.md R160: ERR is not sticky. What it held before a request changes nothing. -/
def Obligations.EarlierErrorsDoNotMatter : Prop :=
  ∀ (s : State) (w : Req) (q : List HostEvent) (e : Byte),
    step { s with err := e, hostQueue := .request w :: q } = step { s with hostQueue := .request w :: q }

/-- 20_memory.md R48, 10_state.md R24: repeating any operation but CRC_FEED changes nothing more, so an accessor gives the
same outcome again; for sensor commands R186, log entry 9. -/
def Obligations.RepeatingARequestChangesNothing : Prop :=
  ∀ (i : Instr) (s t : State), (∀ d0, i ≠ .crcFeed d0) → exec i s = .next t → exec i t = .next t

/-- R134: TEMP_GET's outcome depends on MEAS[0..2] alone and HUM_GET's on MEAS[3..5] alone. -/
def Obligations.AccessorsAreIndependent : Prop :=
  (∀ (s : State) (b3 b4 b5 : Byte), ∃ t u, exec .tempGet s = .next t ∧
    exec .tempGet { s with meas := { s.meas with humidityMsb := b3, humidityLsb := b4, humidityCrc := b5 } } = .next u ∧
    u.result = t.result ∧ u.err = t.err) ∧
  (∀ (s : State) (b0 b1 b2 : Byte), ∃ t u, exec .humGet s = .next t ∧
    exec .humGet { s with meas := { s.meas with temperatureMsb := b0, temperatureLsb := b1, temperatureCrc := b2 } }
      = .next u ∧
    u.result = t.result ∧ u.err = t.err)

/-- STATUS_GET of three bytes succeeds exactly when CRC_CHECK of the same bytes sets RESULT[8]: one predicate serves both
(40_crc.md R108). -/
def Obligations.StatusGetSucceedsWhenCheckMatches : Prop :=
  ∀ (s t u : State) (d0 d1 d2 : Byte), exec (.crcCheck d0 d1 d2) s = .next t → exec (.statusGet 3 d0 d1 d2) s = .next u →
    (t.result.getLsbD 8 = true ↔ u.err.extractLsb 1 0 = 0#2)

/-- 70_reset_and_hazards.md R190: an accessor sees the bytes of the latest successful MEAS_LOAD, whatever other requests
completed or sensor commands were sent between (R186, log entry 9). -/
def Obligations.AccessorsSeeTheLatestLoad : Prop :=
  ∀ (is : List Instr) (s : State) (d0 d1 d2 d3 d4 d5 : Byte),
    (∀ e0 e1 e2 e3 e4 e5, Instr.measLoad 6 e0 e1 e2 e3 e4 e5 ∉ is) →
    ∃ t, execAll (.measLoad 6 d0 d1 d2 d3 d4 d5 :: is) s = .next t ∧ t.meas = ⟨d0, d1, d2, d3, d4, d5⟩ ∧
      exec .tempGet t = accessGroup ⟨d0, d1, d2⟩ .temperature (fun raw => toResult (tempCenti raw)) t ∧
      exec .humGet t = accessGroup ⟨d3, d4, d5⟩ .humidity (fun raw => toResult (humCenti raw)) t

/-- 70_reset_and_hazards.md R185: after reset and before the first successful MEAS_LOAD, TEMP_GET and HUM_GET return CHECKSUM_MISMATCH.
Sensor commands may stand between (R186, log entry 9). -/
def Obligations.NothingMeasuredIsAMismatch : Prop :=
  ∀ (is : List Instr) (s : State), s.meas = State.reset.meas →
    (∀ e0 e1 e2 e3 e4 e5, Instr.measLoad 6 e0 e1 e2 e3 e4 e5 ∉ is) →
    ∃ t, execAll is s = .next t ∧ exec .tempGet t = .next { t with err := 0x09#8 } ∧
      exec .humGet t = .next { t with err := 0x0D#8 }

/-! ## Reset and the port -/

/-- R180, R182: `rst` sets every register to its reset value in one step, from any state, with a request in flight or
without. -/
def Obligations.ResetSetsEveryRegister : Prop :=
  ∀ (s : State) (q : List HostEvent), s.hostQueue = .rst :: q →
    ∃ t, step s = .next t ∧ t.crcAcc = 0xFF#8 ∧ t.meas = ⟨0x00#8, 0x00#8, 0x00#8, 0x00#8, 0x00#8, 0x00#8⟩ ∧
      t.result = 0x0000#16 ∧ t.err = 0x00#8 ∧ t.busy = false ∧ t.inFlight = none

/-- 10_state.md R34: the reset values, in the state after reset. -/
def Obligations.ResetStateHasTheResetValues : Prop :=
  State.reset.crcAcc = 0xFF#8 ∧ State.reset.meas = ⟨0x00#8, 0x00#8, 0x00#8, 0x00#8, 0x00#8, 0x00#8⟩ ∧
  State.reset.result = 0x0000#16 ∧ State.reset.err = 0x00#8 ∧ State.reset.busy = false

/-- 60_exceptions.md R158: a step stops exactly on the two host protocol violations, under their names, and never refuses. The order of
the two before the first reset is the model's (log entry 3). -/
def Obligations.OnlyProtocolViolationsStop : Prop :=
  (∀ s : State, step s = .fault .notReset ↔
    ∃ w q, (s.hostQueue = .request w :: q ∨ s.hostQueue = .present w :: q) ∧ s.wasReset = false) ∧
  (∀ s : State, step s = .fault .hostOverlap ↔
    ∃ w q, (s.hostQueue = .request w :: q ∨ s.hostQueue = .present w :: q) ∧ s.wasReset = true ∧ s.busy = true) ∧
  (∀ (s : State) (r : Refusal), step s ≠ .refused r)

/-- 60_exceptions.md R158, "the fault is never cleared": clock cycles and sensor commands do not stand in for the first
reset, nor do fewer than OP_LATENCY cycles for a completion, and once the host has broken the protocol no later action of
its queue, `rst` included, leads on from the fault. Log entries 4, 9, 10 and 14. -/
def Obligations.AViolationIsNotUndoneByOtherActions : Prop :=
  (∀ (s : State) (before after : List HostEvent) (e : HostEvent) (w : Req) (n : Nat), s.wasReset = false →
    (∀ a ∈ before, a = .clock ∨ ∃ c, a = .sendCommand c) → (e = .request w ∨ e = .present w) →
    s.hostQueue = before ++ e :: after → run (before.length + 1 + n) s = .fault .notReset) ∧
  (∀ (s : State) (k : Nat) (after : List HostEvent) (e : HostEvent) (w w' : Req) (n : Nat), Ready s →
    k < Config.opLatency → (e = .request w' ∨ e = .present w') →
    s.hostQueue = .present w :: (List.replicate k .clock ++ e :: after) →
    run (1 + k + 1 + n) s = .fault .hostOverlap)

/-- 10_state.md R31: acceptance sets BUSY; for the OP_LATENCY cycles until completion RESULT, ERR, CRC_ACC and MEAS show the values
from before the request; and the last of those cycles returns BUSY to 0 with all of the request's writes. That the cycles pass while the host does nothing is the model's choice (log entry 6). -/
def Obligations.BusyFromAcceptanceToCompletion : Prop :=
  (∀ (s : State) (w : Req) (k : Nat), Ready s → s.hostQueue = [.present w] → k < Config.opLatency →
    ∃ t, run (1 + k) s = .next t ∧ t.busy = true ∧
      t.result = s.result ∧ t.err = s.err ∧ t.crcAcc = s.crcAcc ∧ t.meas = s.meas) ∧
  (∀ (s : State) (w : Req), Ready s → s.hostQueue = [.present w] →
    ∃ t, run (1 + Config.opLatency) s = .next t ∧ t.busy = false ∧
      step { s with hostQueue := [.request w] } = .next t)

/-- 70_reset_and_hazards.md R194: a request once accepted completes, within OP_LATENCY cycles, if the host does nothing else. -/
def Obligations.AcceptedRequestsComplete : Prop :=
  ∀ s : State, Inv s → s.wasReset = true → s.busy = true → s.hostQueue = [] →
    ∃ n t, n ≤ Config.opLatency ∧ run n s = .next t ∧ RunEnded t

/-- 20_memory.md R50: a host that issues requests one after another gets the sequential composition of their rules, in
issue order; sensor commands may stand between (R186, log entry 9). -/
def Obligations.RequestsComposeInIssueOrder : Prop :=
  ∀ (is : List Instr) (s : State), Ready s → (∀ i ∈ is, i.wellFormed = true) →
    s.hostQueue = is.map (fun i => issue (encode i)) →
    run is.length s = execAll is { s with hostQueue := [] }

/-- 70_reset_and_hazards.md R194, R190: what is observed (00_scope.md R9) does not depend on OP_LATENCY: presenting each
request and letting its cycles pass gives the (RESULT, ERR) pairs of the atomic requests, and the same final state. The
two ways of issuing a request are the model's (log entry 4). -/
def Obligations.LatencyIsNotObservable : Prop :=
  ∀ (ws : List Req) (s : State), Ready s →
    observed (ws.length * (1 + Config.opLatency))
        { s with hostQueue := ws.flatMap (fun w => .present w :: List.replicate Config.opLatency .clock) } =
      observed ws.length { s with hostQueue := ws.map .request } ∧
    (observed ws.length { s with hostQueue := ws.map .request }).length = ws.length ∧
    run (ws.length * (1 + Config.opLatency))
        { s with hostQueue := ws.flatMap (fun w => .present w :: List.replicate Config.opLatency .clock) } =
      run ws.length { s with hostQueue := ws.map .request }

/-- Every step keeps the invariant: BUSY agrees with the request in flight, which is at most OP_LATENCY cycles from its completion, and
ERR holds one of the six outcomes of R155, so ERR[7:4] = 0 and FIELD is 0 unless CODE is 1 (10_state.md R27, R29,
R31). -/
def Obligations.EveryStepKeepsTheInvariant : Prop :=
  ∀ s t : State, Inv s → step s = .next t → Inv t

/-- The state after reset satisfies the invariant. -/
def Obligations.ResetSatisfiesTheInvariant : Prop := Inv State.reset

/-- From a state with the invariant, the host's actions all run if and only if they keep the protocol of R158 (R184,
R187). That a request may be atomic or presented, and that sensor commands and idle clock cycles break nothing, rests on log
entries 4, 9, 10 and 16. -/
def Obligations.RunsStopExactlyWhenTheProtocolIsBroken : Prop :=
  ∀ s : State, Inv s →
    ((∃ t, run s.hostQueue.length s = .next t) ↔
      keepsProtocol s.wasReset s.cyclesLeft s.hostQueue)

/-- 10_state.md R24, 41_convert.md R125: bytes of MEAS whose checksum does not verify never reach the host. Two states
that differ only in such bytes stay so in every step, with the same outputs and the same stops. -/
def Obligations.UnverifiedBytesNeverReachTheHost : Prop :=
  ∀ s t : State, AlikeButUnverified s t → s.outputs = t.outputs ∧
    ((∃ s' t', step s = .next s' ∧ step t = .next t' ∧ AlikeButUnverified s' t') ∨
      (∃ f, step s = .fault f ∧ step t = .fault f))

/-! ## Assembler -/

/-- R73: the expansions of the two pseudo-instructions, and their end states. `crc.bytes b1, ..., bk`, issued to a ready
block, leaves CRC_ACC = RESULT[7:0] = crc8 of the
bytes; `meas.decode` leaves the six bytes in MEAS and ERR and RESULT as HUM_GET leaves them. -/
def Obligations.PseudoInstructionsEndAsStated : Prop :=
  (∀ bytes : List Byte, assemble (.crcBytes bytes) = assemble .crcInit ++ bytes.flatMap (fun b => assemble (.crcFeed b))) ∧
  (∀ b0 b1 b2 b3 b4 b5 : Byte, assemble (.measDecode b0 b1 b2 b3 b4 b5) =
    assemble (.measLoad none [b0, b1, b2, b3, b4, b5]) ++ assemble .tempGet ++ assemble .humGet) ∧
  (∀ (s : State) (bytes : List Byte), Ready s → s.hostQueue = (assemble (.crcBytes bytes)).map issue →
    run (bytes.length + 1) s = .next { s with
      hostQueue := [], crcAcc := crc8 bytes, result := 0x00#8 ++ crc8 bytes, err := 0x00#8 }) ∧
  (∀ (s : State) (b0 b1 b2 b3 b4 b5 : Byte), Ready s →
    s.hostQueue = (assemble (.measDecode b0 b1 b2 b3 b4 b5)).map issue →
    ∃ t u, exec .tempGet { s with meas := ⟨b0, b1, b2, b3, b4, b5⟩, hostQueue := [] } = .next t ∧
      exec .humGet t = .next u ∧ run 3 s = .next u ∧ u.meas = ⟨b0, b1, b2, b3, b4, b5⟩)

/-- 30_encoding.md R72: the words of every line of the table. The 0 in the fields that a line does not set, len among them
for the lines of operations that do not read it, is the model's choice (log entries 11 and 18). -/
def Obligations.ListedBytesSetLenAndLanes : Prop :=
  (assemble .crcInit = [.request (packReq 0x1#4 0#3 0#1 0 0 0 0 0 0)]) ∧
  (∀ b : Byte, assemble (.crcFeed b) = [.request (packReq 0x2#4 0#3 0#1 b 0 0 0 0 0)]) ∧
  (∀ msb lsb : Byte, assemble (.crcWord msb lsb) = [.request (packReq 0x3#4 0#3 0#1 msb lsb 0 0 0 0)]) ∧
  (∀ msb lsb c : Byte, assemble (.crcCheck msb lsb c) = [.request (packReq 0x4#4 0#3 0#1 msb lsb c 0 0 0)]) ∧
  (∀ b0 b1 b2 b3 b4 b5 : Byte, assemble (.measLoad none [b0, b1, b2, b3, b4, b5]) =
    [.request (requestOfBytes 0x5C#8 b0 b1 b2 b3 b4 b5)]) ∧
  (∀ (n : BitVec 3) (b0 b1 b2 b3 b4 b5 : Byte), assemble (.measLoad (some n.toNat) [b0, b1, b2, b3, b4, b5]) =
    [.request (packReq 0x5#4 n 0#1 b0 b1 b2 b3 b4 b5)]) ∧
  (assemble .tempGet = [.request (packReq 0x6#4 0#3 0#1 0 0 0 0 0 0)]) ∧
  (assemble .humGet = [.request (packReq 0x7#4 0#3 0#1 0 0 0 0 0 0)]) ∧
  (∀ msb lsb c : Byte, assemble (.statusGet none [msb, lsb, c]) = [.request (requestOfBytes 0x86#8 msb lsb c 0 0 0)]) ∧
  (∀ (n : BitVec 3) (msb lsb c : Byte), assemble (.statusGet (some n.toNat) [msb, lsb, c]) =
    [.request (packReq 0x8#4 n 0#1 msb lsb c 0 0 0)]) ∧
  (∀ msb lsb : Byte, assemble (.statusGet none [msb, lsb]) = [.request (requestOfBytes 0x84#8 msb lsb 0 0 0 0)]) ∧
  (∀ w : Req, assemble (.rawRequest w) = [.request w])
end

