-- ==== Sys2Proof/Laws/Checksum.lean ====
section
/-! SUPPORT. The equations of the checksum function (40_crc.md R102), and its bit step as a fact about bits. -/

namespace Sys2Proof.Machine

theorem crc8_nil : crc8 [] = crcInitial := rfl

theorem crc8_snoc (bytes : List Byte) (b : Byte) : crc8 (bytes ++ [b]) = crcByte (crc8 bytes) b := by
  simp only [crc8, List.foldl_append, List.foldl_cons, List.foldl_nil]

theorem crc8_pair (msb lsb : Byte) : crc8 [msb, lsb] = crcByte (crcByte crcInitial msb) lsb := rfl

theorem crcStep_of_top {a : Byte} (h : a.getLsbD 7 = true) : crcStep a = (a <<< 1) ^^^ 0x31#8 := by
  revert h; revert a; decide

theorem crcStep_of_not_top {a : Byte} (h : a.getLsbD 7 = false) : crcStep a = a <<< 1 := by
  revert h; revert a; decide

end Sys2Proof.Machine
end

