-- ==== Sys2Proof/Laws/Decode.lean ====
section
/-! SUPPORT. The fields of a packed request word, every word as the packing of its fields, and masking field by field. -/

namespace Sys2Proof

/-- The bits of a packed word, from d5 up (30_encoding.md R61). -/
theorem getLsbD_packReq (op : BitVec 4) (len : BitVec 3) (rsv : BitVec 1) (d0 d1 d2 d3 d4 d5 : Byte) (k : Nat) :
    (packReq op len rsv d0 d1 d2 d3 d4 d5).getLsbD k =
      if k < 8 then d5.getLsbD k
      else if k - 8 < 8 then d4.getLsbD (k - 8)
      else if k - 8 - 8 < 8 then d3.getLsbD (k - 8 - 8)
      else if k - 8 - 8 - 8 < 8 then d2.getLsbD (k - 8 - 8 - 8)
      else if k - 8 - 8 - 8 - 8 < 8 then d1.getLsbD (k - 8 - 8 - 8 - 8)
      else if k - 8 - 8 - 8 - 8 - 8 < 8 then d0.getLsbD (k - 8 - 8 - 8 - 8 - 8)
      else if k - 8 - 8 - 8 - 8 - 8 - 8 < 1 then rsv.getLsbD (k - 8 - 8 - 8 - 8 - 8 - 8)
      else if k - 8 - 8 - 8 - 8 - 8 - 8 - 1 < 3 then len.getLsbD (k - 8 - 8 - 8 - 8 - 8 - 8 - 1)
      else op.getLsbD (k - 8 - 8 - 8 - 8 - 8 - 8 - 1 - 3) := by
  simp only [packReq, requestOfBytes, headerByte, BitVec.getLsbD_append]

variable (op : BitVec 4) (len : BitVec 3) (rsv : BitVec 1) (d0 d1 d2 d3 d4 d5 : Byte)

theorem reqOp_packReq : reqOp (packReq op len rsv d0 d1 d2 d3 d4 d5) = op := by
  refine BitVec.eq_of_getLsbD_eq fun k hk => ?_
  simp only [reqOp, BitVec.getLsbD_extractLsb', getLsbD_packReq]
  interval_cases k <;> simp

theorem reqLen_packReq : reqLen (packReq op len rsv d0 d1 d2 d3 d4 d5) = len := by
  refine BitVec.eq_of_getLsbD_eq fun k hk => ?_
  simp only [reqLen, BitVec.getLsbD_extractLsb', getLsbD_packReq]
  interval_cases k <;> simp

theorem reqRsv_packReq : reqRsv (packReq op len rsv d0 d1 d2 d3 d4 d5) = rsv.getLsbD 0 := by
  simp only [reqRsv, getLsbD_packReq]
  simp

theorem reqLane0_packReq : reqLane (packReq op len rsv d0 d1 d2 d3 d4 d5) 0 = d0 := by
  refine BitVec.eq_of_getLsbD_eq fun k hk => ?_
  simp only [reqLane, BitVec.getLsbD_extractLsb', getLsbD_packReq]
  interval_cases k <;> simp

theorem reqLane1_packReq : reqLane (packReq op len rsv d0 d1 d2 d3 d4 d5) 1 = d1 := by
  refine BitVec.eq_of_getLsbD_eq fun k hk => ?_
  simp only [reqLane, BitVec.getLsbD_extractLsb', getLsbD_packReq]
  interval_cases k <;> simp

theorem reqLane2_packReq : reqLane (packReq op len rsv d0 d1 d2 d3 d4 d5) 2 = d2 := by
  refine BitVec.eq_of_getLsbD_eq fun k hk => ?_
  simp only [reqLane, BitVec.getLsbD_extractLsb', getLsbD_packReq]
  interval_cases k <;> simp

theorem reqLane3_packReq : reqLane (packReq op len rsv d0 d1 d2 d3 d4 d5) 3 = d3 := by
  refine BitVec.eq_of_getLsbD_eq fun k hk => ?_
  simp only [reqLane, BitVec.getLsbD_extractLsb', getLsbD_packReq]
  interval_cases k <;> simp

theorem reqLane4_packReq : reqLane (packReq op len rsv d0 d1 d2 d3 d4 d5) 4 = d4 := by
  refine BitVec.eq_of_getLsbD_eq fun k hk => ?_
  simp only [reqLane, BitVec.getLsbD_extractLsb', getLsbD_packReq]
  interval_cases k <;> simp

theorem reqLane5_packReq : reqLane (packReq op len rsv d0 d1 d2 d3 d4 d5) 5 = d5 := by
  refine BitVec.eq_of_getLsbD_eq fun k hk => ?_
  simp only [reqLane, BitVec.getLsbD_extractLsb', getLsbD_packReq]
  interval_cases k <;> simp

/-- Every request word is the packing of its fields (30_encoding.md R61). -/
theorem packReq_fields (w : Req) : packReq (reqOp w) (reqLen w) (BitVec.ofBool (reqRsv w)) (reqLane w 0) (reqLane w 1)
    (reqLane w 2) (reqLane w 3) (reqLane w 4) (reqLane w 5) = w := by
  refine BitVec.eq_of_getLsbD_eq fun k hk => ?_
  simp only [getLsbD_packReq, reqOp, reqLen, reqRsv, reqLane, BitVec.getLsbD_extractLsb', BitVec.getLsbD_ofBool]
  interval_cases k <;> simp

/-- A word is determined by its fields. -/
theorem packReq_inj {op' : BitVec 4} {len' : BitVec 3} {rsv' : BitVec 1} {e0 e1 e2 e3 e4 e5 : Byte}
    (h : packReq op len rsv d0 d1 d2 d3 d4 d5 = packReq op' len' rsv' e0 e1 e2 e3 e4 e5) :
    op = op' ∧ len = len' ∧ rsv.getLsbD 0 = rsv'.getLsbD 0 ∧ d0 = e0 ∧ d1 = e1 ∧ d2 = e2 ∧ d3 = e3 ∧ d4 = e4 ∧
      d5 = e5 := by
  have hop := congrArg reqOp h
  have hlen := congrArg reqLen h
  have hrsv := congrArg reqRsv h
  have h0 := congrArg (reqLane · 0) h
  have h1 := congrArg (reqLane · 1) h
  have h2 := congrArg (reqLane · 2) h
  have h3 := congrArg (reqLane · 3) h
  have h4 := congrArg (reqLane · 4) h
  have h5 := congrArg (reqLane · 5) h
  simp only [reqOp_packReq, reqLen_packReq, reqRsv_packReq, reqLane0_packReq, reqLane1_packReq, reqLane2_packReq,
    reqLane3_packReq, reqLane4_packReq, reqLane5_packReq] at *
  exact ⟨hop, hlen, hrsv, h0, h1, h2, h3, h4, h5⟩

/-- Decoding by fields (30_encoding.md R69). -/
theorem decodeRequest_packReq : decodeRequest (packReq op len rsv d0 d1 d2 d3 d4 d5) =
    if rsv.getLsbD 0 then .error .reservedBit
    else match op with
      | 0x1#4 => .ok .crcInit
      | 0x2#4 => .ok (.crcFeed d0)
      | 0x3#4 => .ok (.crcWord d0 d1)
      | 0x4#4 => .ok (.crcCheck d0 d1 d2)
      | 0x5#4 => .ok (.measLoad len.toNat d0 d1 d2 d3 d4 d5)
      | 0x6#4 => .ok .tempGet
      | 0x7#4 => .ok .humGet
      | 0x8#4 => .ok (.statusGet len.toNat d0 d1 d2)
      | op => .error (.reservedOp op) := by
  simp only [decodeRequest, reqOp_packReq, reqLen_packReq, reqRsv_packReq, reqLane0_packReq, reqLane1_packReq,
    reqLane2_packReq, reqLane3_packReq, reqLane4_packReq, reqLane5_packReq]
  first | done | rfl

/-- The fields as the bit slices of R61. -/
theorem reqOp_eq_slice (w : Req) : reqOp w = w.extractLsb 55 52 := rfl

/-- Masking two packed words masks each field. -/
theorem packReq_and (op' : BitVec 4) (len' : BitVec 3) (rsv' : BitVec 1) (e0 e1 e2 e3 e4 e5 : Byte) :
    packReq op len rsv d0 d1 d2 d3 d4 d5 &&& packReq op' len' rsv' e0 e1 e2 e3 e4 e5 =
      packReq (op &&& op') (len &&& len') (rsv &&& rsv') (d0 &&& e0) (d1 &&& e1) (d2 &&& e2) (d3 &&& e3) (d4 &&& e4)
        (d5 &&& e5) := by
  refine BitVec.eq_of_getLsbD_eq fun k _ => ?_
  simp only [BitVec.getLsbD_and, getLsbD_packReq]
  split_ifs <;> rfl

/-- The mask of every REQ56 row, in fields: op and rsv (30_encoding.md R69). -/
theorem opMask_eq : 0xF1000000000000#56 = packReq 0xF#4 0#3 1#1 0 0 0 0 0 0 := by decide

end Sys2Proof
end

