-- ==== Sys2Proof/Laws/State.lean ====
section
/-! SUPPORT. Each register write, field by field: the field it writes holds the value, every other field is unchanged. -/

namespace Sys2Proof.Machine

variable (s : State)

@[simp] theorem writeCrcAcc_crcAcc (v : Byte) : (s.writeCrcAcc v).crcAcc = v := rfl
@[simp] theorem writeCrcAcc_meas (v : Byte) : (s.writeCrcAcc v).meas = s.meas := rfl
@[simp] theorem writeCrcAcc_result (v : Byte) : (s.writeCrcAcc v).result = s.result := rfl
@[simp] theorem writeCrcAcc_err (v : Byte) : (s.writeCrcAcc v).err = s.err := rfl
@[simp] theorem writeCrcAcc_busy (v : Byte) : (s.writeCrcAcc v).busy = s.busy := rfl
@[simp] theorem writeCrcAcc_wasReset (v : Byte) : (s.writeCrcAcc v).wasReset = s.wasReset := rfl
@[simp] theorem writeCrcAcc_inFlight (v : Byte) : (s.writeCrcAcc v).inFlight = s.inFlight := rfl
@[simp] theorem writeCrcAcc_hostQueue (v : Byte) : (s.writeCrcAcc v).hostQueue = s.hostQueue := rfl

@[simp] theorem writeMeas_crcAcc (m : Meas) : (s.writeMeas m).crcAcc = s.crcAcc := rfl
@[simp] theorem writeMeas_meas (m : Meas) : (s.writeMeas m).meas = m := rfl
@[simp] theorem writeMeas_result (m : Meas) : (s.writeMeas m).result = s.result := rfl
@[simp] theorem writeMeas_err (m : Meas) : (s.writeMeas m).err = s.err := rfl
@[simp] theorem writeMeas_busy (m : Meas) : (s.writeMeas m).busy = s.busy := rfl
@[simp] theorem writeMeas_wasReset (m : Meas) : (s.writeMeas m).wasReset = s.wasReset := rfl
@[simp] theorem writeMeas_inFlight (m : Meas) : (s.writeMeas m).inFlight = s.inFlight := rfl
@[simp] theorem writeMeas_hostQueue (m : Meas) : (s.writeMeas m).hostQueue = s.hostQueue := rfl

@[simp] theorem writeResult_crcAcc (v : Half) : (s.writeResult v).crcAcc = s.crcAcc := rfl
@[simp] theorem writeResult_meas (v : Half) : (s.writeResult v).meas = s.meas := rfl
@[simp] theorem writeResult_result (v : Half) : (s.writeResult v).result = v := rfl
@[simp] theorem writeResult_err (v : Half) : (s.writeResult v).err = s.err := rfl
@[simp] theorem writeResult_busy (v : Half) : (s.writeResult v).busy = s.busy := rfl
@[simp] theorem writeResult_wasReset (v : Half) : (s.writeResult v).wasReset = s.wasReset := rfl
@[simp] theorem writeResult_inFlight (v : Half) : (s.writeResult v).inFlight = s.inFlight := rfl
@[simp] theorem writeResult_hostQueue (v : Half) : (s.writeResult v).hostQueue = s.hostQueue := rfl

@[simp] theorem writeErr_crcAcc (v : Byte) : (s.writeErr v).crcAcc = s.crcAcc := rfl
@[simp] theorem writeErr_meas (v : Byte) : (s.writeErr v).meas = s.meas := rfl
@[simp] theorem writeErr_result (v : Byte) : (s.writeErr v).result = s.result := rfl
@[simp] theorem writeErr_err (v : Byte) : (s.writeErr v).err = v := rfl
@[simp] theorem writeErr_busy (v : Byte) : (s.writeErr v).busy = s.busy := rfl
@[simp] theorem writeErr_wasReset (v : Byte) : (s.writeErr v).wasReset = s.wasReset := rfl
@[simp] theorem writeErr_inFlight (v : Byte) : (s.writeErr v).inFlight = s.inFlight := rfl
@[simp] theorem writeErr_hostQueue (v : Byte) : (s.writeErr v).hostQueue = s.hostQueue := rfl

end Sys2Proof.Machine
end

