-- ==== Sys2Proof/Laws/Ops.lean ====
section
/-! SUPPORT. One lemma per shared operation: everything it can answer. -/

namespace Sys2Proof.Machine

theorem errWord_ok : errWord .ok .none = 0x00#8 := by decide

theorem errWord_busRead : errWord .busRead .none = 0x02#8 := by decide

theorem errWord_illegalOp : errWord .illegalOp .none = 0x03#8 := by decide

theorem errWord_status : errWord .checksumMismatch .status = 0x05#8 := by decide

theorem errWord_temperature : errWord .checksumMismatch .temperature = 0x09#8 := by decide

theorem errWord_humidity : errWord .checksumMismatch .humidity = 0x0D#8 := by decide

/-- The fields of ERR are where R27 puts them, and `ERR[7:4]` is 0. -/
theorem errWord_fields (code : ErrCode) (field : ErrField) :
    errCodeOf (errWord code field) = errCodeBits code ∧ errFieldOf (errWord code field) = errFieldBits field ∧
      errReservedOf (errWord code field) = 0#4 := by
  cases code <;> cases field <;> decide

theorem complete_eq (s : State) : complete s = .next { s with err := 0x00#8 } := by
  simp only [complete, errWord_ok, State.writeErr]

theorem raiseErr_eq (code : ErrCode) (field : ErrField) (s : State) :
    raiseErr code field s = .next { s with err := errWord code field } := rfl

theorem accessGroup_of_valid {g : Group} (h : g.valid = true) (field : ErrField) (convert : Half → Half) (s : State) :
    accessGroup g field convert s = .next { s with result := convert g.raw, err := 0x00#8 } := by
  simp only [accessGroup, h, if_true, complete_eq, State.writeResult]

theorem accessGroup_of_invalid {g : Group} (h : g.valid = false) (field : ErrField) (convert : Half → Half) (s : State) :
    accessGroup g field convert s = .next { s with err := errWord .checksumMismatch field } := by
  simp only [accessGroup, h, Bool.false_eq_true, if_false, raiseErr_eq]

theorem group_valid_iff (g : Group) : g.valid = true ↔ crc8 [g.msb, g.lsb] = g.crc := by
  simp only [Group.valid, crcOk, decide_eq_true_eq]

theorem group_valid_eq_false_iff (g : Group) : g.valid = false ↔ crc8 [g.msb, g.lsb] ≠ g.crc := by
  rw [← Bool.not_eq_true, group_valid_iff]

/-- The raw word is its two bytes side by side, the first in the high bits (30_encoding.md R65). -/
theorem rawWord_eq_append (msb lsb : Byte) : rawWord msb lsb = msb ++ lsb := by
  refine BitVec.eq_of_getLsbD_eq fun k hk => ?_
  simp only [rawWord, BitVec.getLsbD_append, BitVec.getLsbD_or, BitVec.getLsbD_shiftLeft, BitVec.getLsbD_setWidth]
  interval_cases k <;> simp

/-- `zext_16(m) << 8 | zext_16(c)` puts the match bit at 8 and the checksum below it (R107). -/
theorem checkResult_eq (m : Bool) (c : Byte) : checkResult m c = 0#7 ++ BitVec.ofBool m ++ c := by
  cases m <;> revert c <;> decide

theorem setWidth_byte_eq (c : Byte) : c.setWidth 16 = 0x00#8 ++ c := by
  revert c; decide

end Sys2Proof.Machine
end

