-- ==== Sys2Proof/Laws/PerInstr.lean ====
section
/-! SUPPORT. One statement about every instruction as syntax: its encoding is a word of its own row of the opcode table. -/

namespace Sys2Proof.Laws.TableRow

/-- The row of `opcodeTable` with the instruction's mnemonic accepts its encoding, and no other row does. -/
def Statement (i : Instr) : Prop :=
  (opcodeTable.filter (fun row => row.accepts (encode i))).map OpRow.mnemonic = [i.mnemonic]

theorem masked_packReq (op : BitVec 4) (len : BitVec 3) (d0 d1 d2 d3 d4 d5 : Byte) :
    packReq op len 0#1 d0 d1 d2 d3 d4 d5 &&& BitVec.ofNat 56 0xF1000000000000 = packReq op 0#3 0#1 0 0 0 0 0 0 := by
  have h := opMask_eq
  rw [show BitVec.ofNat 56 0xF1000000000000 = 0xF1000000000000#56 from rfl, h, packReq_and]
  have hop : op &&& 0xF#4 = op := by revert op; decide
  simp [hop]

/-- The rows that accept a request word with `rsv = 0` are those whose match is its op code. -/
theorem accepting_rows (op : BitVec 4) (len : BitVec 3) (d0 d1 d2 d3 d4 d5 : Byte) :
    opcodeTable.filter (fun row => row.accepts (.request (packReq op len 0#1 d0 d1 d2 d3 d4 d5))) =
      opcodeTable.filter (fun row => row.accepts (.request (packReq op 0#3 0#1 0 0 0 0 0 0))) := by
  refine List.filter_congr fun row hrow => ?_
  simp only [opcodeTable, List.mem_cons, List.not_mem_nil, or_false] at hrow
  have hmask : row.bits = 56 → row.mask = 0xF1000000000000 := by
    rcases hrow with rfl | rfl | rfl | rfl | rfl | rfl | rfl | rfl | rfl | rfl | rfl | rfl | rfl | rfl <;> decide
  by_cases hb : row.bits = 56
  · simp only [OpRow.accepts, hmask hb, masked_packReq]
  · simp only [OpRow.accepts, hb, decide_false, Bool.false_and]

theorem crcInit : Statement .crcInit := by unfold Statement; decide

theorem crcFeed (d0 : Byte) : Statement (.crcFeed d0) := by
  simp only [Statement, encode, accepting_rows, Instr.mnemonic]; decide

theorem crcWord (d0 d1 : Byte) : Statement (.crcWord d0 d1) := by
  simp only [Statement, encode, accepting_rows, Instr.mnemonic]; decide

theorem crcCheck (d0 d1 d2 : Byte) : Statement (.crcCheck d0 d1 d2) := by
  simp only [Statement, encode, accepting_rows, Instr.mnemonic]; decide

theorem measLoad (len : Nat) (d0 d1 d2 d3 d4 d5 : Byte) : Statement (.measLoad len d0 d1 d2 d3 d4 d5) := by
  simp only [Statement, encode, accepting_rows, Instr.mnemonic]; decide

theorem tempGet : Statement .tempGet := by unfold Statement; decide

theorem humGet : Statement .humGet := by unfold Statement; decide

theorem statusGet (len : Nat) (d0 d1 d2 : Byte) : Statement (.statusGet len d0 d1 d2) := by
  simp only [Statement, encode, accepting_rows, Instr.mnemonic]; decide

theorem sensorReset : Statement .sensorReset := by unfold Statement; decide

theorem sensorReadStatus : Statement .sensorReadStatus := by unfold Statement; decide

theorem sensorClearStatus : Statement .sensorClearStatus := by unfold Statement; decide

theorem sensorMeasure : Statement .sensorMeasure := by unfold Statement; decide

theorem sensorHeaterOn : Statement .sensorHeaterOn := by unfold Statement; decide

theorem sensorHeaterOff : Statement .sensorHeaterOff := by unfold Statement; decide

end Sys2Proof.Laws.TableRow
end

