-- ==== Sys2Proof/Laws/Port.lean ====
section
/-! SUPPORT. What the port and one step answer, case by case; later proofs cite these and unfold neither. -/

namespace Sys2Proof.Machine

theorem step_of_empty {s : State} (h : s.hostQueue = []) : step s = clockCycle s := by
  simp only [step, h]

theorem step_of_cons {s : State} {e : HostEvent} {q : List HostEvent} (h : s.hostQueue = e :: q) :
    step s = serve e { s with hostQueue := q } := by
  simp only [step, h]

/-- A request is admitted exactly by a block that has been reset and is idle (R181, R187). -/
theorem requestFault_eq_none_iff (s : State) : requestFault s = none ↔ s.wasReset = true ∧ s.busy = false := by
  cases hr : s.wasReset <;> cases hb : s.busy <;> simp [requestFault, hr, hb]

theorem requestFault_eq_notReset_iff (s : State) : requestFault s = some .notReset ↔ s.wasReset = false := by
  cases hr : s.wasReset <;> cases hb : s.busy <;> simp [requestFault, hr, hb]

theorem requestFault_eq_hostOverlap_iff (s : State) :
    requestFault s = some .hostOverlap ↔ s.wasReset = true ∧ s.busy = true := by
  cases hr : s.wasReset <;> cases hb : s.busy <;> simp [requestFault, hr, hb]

theorem requestFault_of_ready {s : State} (h : Ready s) : requestFault s = none :=
  (requestFault_eq_none_iff s).mpr ⟨h.wasReset, h.idle⟩

theorem runRequest_of_ok {w : Req} {i : Instr} (h : decodeRequest w = .ok i) (s : State) :
    runRequest w s = exec i s := by
  simp only [runRequest, h]

theorem runRequest_of_error {w : Req} {e : DecodeError} (h : decodeRequest w = .error e) (s : State) :
    runRequest w s = .next { s with err := 0x03#8 } := by
  simp only [runRequest, h, raiseErr_eq, errWord_illegalOp]

/-- A request in a ready block is run at once, with the host's action taken off its queue. -/
theorem step_request_of_ready {s : State} {w : Req} {q : List HostEvent} (hs : Ready s)
    (h : s.hostQueue = .request w :: q) : step s = runRequest w { s with hostQueue := q } := by
  have hf : requestFault { s with hostQueue := q } = none := (requestFault_eq_none_iff _).mpr ⟨hs.wasReset, hs.idle⟩
  simp only [step_of_cons h, serve, hf]

/-- A request presented to a ready block is in flight afterwards. -/
theorem step_present_of_ready {s : State} {w : Req} {q : List HostEvent} (hs : Ready s)
    (h : s.hostQueue = .present w :: q) : step s = .next (acceptRequest w { s with hostQueue := q }) := by
  have hf : requestFault { s with hostQueue := q } = none := (requestFault_eq_none_iff _).mpr ⟨hs.wasReset, hs.idle⟩
  simp only [step_of_cons h, serve, hf]

theorem clockCycle_of_idle {s : State} (h : s.inFlight = none) : clockCycle s = .next s := by
  simp only [clockCycle, h]

theorem clockCycle_of_last {s : State} {f : InFlight} (h : s.inFlight = some f) (hf : f.cyclesLeft ≤ 1) :
    clockCycle s = runRequest f.req { s with busy := false, inFlight := none } := by
  simp only [clockCycle, h, hf, if_true]

theorem clockCycle_of_waiting {s : State} {f : InFlight} (h : s.inFlight = some f) (hf : ¬ f.cyclesLeft ≤ 1) :
    clockCycle s = .next { s with inFlight := some { f with cyclesLeft := f.cyclesLeft - 1 } } := by
  simp only [clockCycle, h, hf, if_false]

/-- No command word changes the block (70_reset_and_hazards.md R186). -/
theorem sendCommand_eq (w : Half) (s : State) : sendCommand w s = .next s := by
  simp only [sendCommand]
  split
  · rename_i i h
    simp only [decodeCommand] at h
    split at h <;> cases h <;> rfl
  · rfl

theorem opLatency_pos : 1 ≤ Config.opLatency := Nat.le_add_left 1 _

theorem run_zero (s : State) : run 0 s = .next s := rfl

theorem run_succ_of_next {n : Nat} {s t : State} (h : step s = .next t) : run (n + 1) s = run n t := by
  simp only [run, h]

theorem run_succ_of_fault {n : Nat} {s : State} {f : Fault} (h : step s = .fault f) : run (n + 1) s = .fault f := by
  simp only [run, h]

theorem run_one (s : State) : run 1 s = step s := by
  simp only [run]
  cases step s <;> rfl

theorem core_run_succ (M : Host.Core) (n : Nat) (s : M.State) :
    M.run (n + 1) s = match M.step s with
      | .next t => M.run n t
      | .fault f => .fault f
      | .refused r => .refused r := rfl

/-- Runs compose. -/
theorem run_add_of_next {m : Nat} (n : Nat) {s t : State} (h : run m s = .next t) : run (m + n) s = run n t := by
  induction m generalizing s with
  | zero => cases (run_zero s).symm.trans h; rw [Nat.zero_add]
  | succ m ih =>
    rw [Nat.add_right_comm]
    cases hs : step s with
    | next u => rw [run_succ_of_next hs] at h ⊢; exact ih h
    | fault f => rw [run_succ_of_fault hs] at h; cases h
    | refused r => rw [run, hs] at h; cases h

/-- `run` is the host's own run of this machine. -/
theorem core_run_eq (n : Nat) (s : State) : Host.Core.run Sys2Proof.core n s = run n s := by
  induction n generalizing s with
  | zero => rfl
  | succ n ih =>
    refine (core_run_succ Sys2Proof.core n s).trans ?_
    cases h : step s with
    | next t => rw [run_succ_of_next h, show Sys2Proof.core.step s = .next t from h]; exact ih t
    | fault f => rw [run_succ_of_fault h, show Sys2Proof.core.step s = .fault f from h]; rfl
    | refused r => rw [run, h, show Sys2Proof.core.step s = .refused r from h]; rfl

/-- The next step after `withFetchWord` with a request row's word runs that word. -/
theorem step_withFetchWord_request {nbits w : Nat} (h : 16 < nbits) (s : State) :
    step (s.withFetchWord nbits w) =
      runRequest (BitVec.ofNat 56 (w % 2 ^ nbits)) { s with busy := false, wasReset := true, inFlight := none } := by
  have hn : ¬ nbits ≤ 16 := by omega
  simp only [State.withFetchWord, tablePacket, hn, if_false]
  exact step_request_of_ready ⟨rfl, rfl, rfl⟩ rfl

/-- The next step after `withFetchWord` with a sensor row's word sends that command. -/
theorem step_withFetchWord_command {nbits w : Nat} (h : nbits ≤ 16) (s : State) :
    step (s.withFetchWord nbits w) = sendCommand (BitVec.ofNat 16 (w % 2 ^ nbits)) s := by
  simp only [State.withFetchWord, tablePacket, h, if_true, step, serve]

end Sys2Proof.Machine
end

