-- ==== Sys2Proof/Tests/Slice0.lean ====
section
/-! SUPPORT. The model's own tests. Expected values come from spec/95_test_vectors.md (the vector's id stands at each test) or from the rule named there. The second half shows, for each statement with hypotheses, a state and operands that meet them all. -/

namespace Sys2Proof.Tests

open Sys2Proof.Machine

/-! ## Helpers -/

/-- A field of the next state. -/
def field {α : Type} (f : State → α) : Result → Option α
  | .next t => some (f t)
  | .fault _ => none
  | .refused _ => none

/-- The fault of a step, if it stops with one. -/
def stop : Result → Option Fault
  | .next _ => none
  | .fault f => some f
  | .refused _ => none

/-- What a decoder answers, without the reason of a rejection. -/
def accepted : Except DecodeError Instr → Option Instr
  | .ok i => some i
  | .error _ => none

/-- The state after reset with one request as the host's next action. -/
def asked (w : Req) : State := { State.reset with hostQueue := [.request w] }

/-- The source's measurement fixture `DE AD 98 BE EF 92` (L1-3). -/
def fixture : Meas := ⟨0xDE#8, 0xAD#8, 0x98#8, 0xBE#8, 0xEF#8, 0x92#8⟩

/-- The state after reset with the fixture stored. -/
def measured : State := { State.reset with meas := fixture }

/-- A busy block: a request was presented and one cycle is left. -/
def waiting : State := { State.reset with busy := true, inFlight := some ⟨0x30BEEF00000000#56, 1⟩ }

/-- A block that has never been reset. -/
def unreset : State := { State.reset with wasReset := false }

/-! ## WellFormed: each check refuses an ill-formed term -/

theorem test_wellFormed_refuses_measLoad_len : (Instr.measLoad 8 0 0 0 0 0 0).wellFormed = false := by decide

theorem test_wellFormed_refuses_statusGet_len : (Instr.statusGet 8 0 0 0).wellFormed = false := by decide

theorem test_asmLine_refuses_seven_bytes : (AsmLine.measLoad none [0, 0, 0, 0, 0, 0, 0]).wellFormed = false := by decide

theorem test_asmLine_refuses_len_eight : (AsmLine.statusGet (some 8) [0, 0, 0]).wellFormed = false := by decide

/-! ## Decode: words written out from 30_encoding.md R61, R62 and R81 to R86 -/

/-- R62, header `0x1E`: len is don't-care (V-CRCOP-2). -/
theorem test_decode_crcInit : accepted (decode (.request 0x1EFFFFFFFFFFFF#56)) = some .crcInit := by decide

/-- V-CRCOP-3. -/
theorem test_decode_crcFeed : accepted (decode (.request 0x20BE0000000000#56)) = some (.crcFeed 0xBE#8) := by decide

/-- V-CRCOP-8. -/
theorem test_decode_crcWord : accepted (decode (.request 0x30BEEF00000000#56)) = some (.crcWord 0xBE#8 0xEF#8) := by
  decide

/-- V-CRCOP-11. -/
theorem test_decode_crcCheck :
    accepted (decode (.request 0x40BEEF92000000#56)) = some (.crcCheck 0xBE#8 0xEF#8 0x92#8) := by decide

/-- V-ACC-2: header `0x5A` is op 5, len 5. -/
theorem test_decode_measLoad : accepted (decode (.request 0x5ADEAD98BEEF92#56)) =
    some (.measLoad 5 0xDE#8 0xAD#8 0x98#8 0xBE#8 0xEF#8 0x92#8) := by decide

/-- V-ACC-6. -/
theorem test_decode_tempGet : accepted (decode (.request 0x60000000000000#56)) = some .tempGet := by decide

/-- V-ACC-7. -/
theorem test_decode_humGet : accepted (decode (.request 0x70000000000000#56)) = some .humGet := by decide

/-- V-ACC-17: header `0x86` is op 8, len 3. -/
theorem test_decode_statusGet :
    accepted (decode (.request 0x86000081000000#56)) = some (.statusGet 3 0x00#8 0x00#8 0x81#8) := by decide

/-- V-ENC-6 and V-ENC-1: the reserved bit and a reserved op, each rejected by its name. -/
theorem test_decode_rejects_by_name :
    (match decodeRequest 0x5DDEAD98BEEF92#56 with | .error .reservedBit => true | _ => false) = true ∧
    (match decodeRequest 0x00000000000000#56 with | .error (.reservedOp 0x0#4) => true | _ => false) = true ∧
    (match decodeCommand 0x0000#16 with | .error (.unknownCommand 0x0000#16) => true | _ => false) = true := by decide

/-- R81 to R86: the six command words. -/
theorem test_decode_commands : [0x30A2#16, 0xF32D#16, 0x3041#16, 0x2400#16, 0x306D#16, 0x3066#16].map
    (fun w => accepted (decode (.command w))) =
    [some .sensorReset, some .sensorReadStatus, some .sensorClearStatus, some .sensorMeasure, some .sensorHeaterOn,
      some .sensorHeaterOff] := by decide

/-- R60 and R80: byte strings, the header byte or the most significant byte first. -/
theorem test_decode_bytes :
    accepted (decodeBytes [0x20#8, 0xBE#8, 0x11#8, 0x22#8, 0x33#8, 0x44#8, 0x55#8]) = some (.crcFeed 0xBE#8) ∧
    accepted (decodeBytes [0xF3#8, 0x2D#8]) = some .sensorReadStatus ∧
    accepted (decodeBytes [0x20#8]) = none := by decide

/-- R69: no two rows of the table match one word. -/
theorem test_table_rows_do_not_overlap : opcodeTable.Pairwise (fun a b => a.bits ≠ b.bits ∨
    (a.pattern ^^^ b.pattern) &&& (a.mask &&& b.mask) ≠ 0) := by decide

/-- The host's own view of a row's word. -/
theorem test_decodeTableWord : decodeTableWord 56 0x60000000000000 = some .tempGet ∧
    decodeTableWord 16 0x2400 = some .sensorMeasure := by decide

/-! ## The checksum function -/

/-- The single-step vectors of 95_test_vectors.md. -/
theorem test_crcStep : [0x00#8, 0x01#8, 0x7F#8, 0x80#8, 0xFF#8, 0x41#8, 0x82#8].map crcStep =
    [0x00#8, 0x02#8, 0xFE#8, 0x31#8, 0xCF#8, 0x82#8, 0x35#8] := by decide

/-- R103(c)'s table of T. -/
theorem test_byte_transform : [0x00#8, 0x01#8, 0x02#8, 0x03#8, 0x04#8, 0x05#8, 0x0E#8, 0x0F#8].map crcStep8 =
    [0x00#8, 0x31#8, 0x62#8, 0x53#8, 0xC4#8, 0xF5#8, 0x1F#8, 0x2E#8] := by decide

/-- V-CRC-13, V-CRC-10 and V-CRC-14. -/
theorem test_crc8 :
    crc8 [0x31#8, 0x32#8, 0x33#8, 0x34#8, 0x35#8, 0x36#8, 0x37#8, 0x38#8, 0x39#8] = 0xF7#8 ∧
    crc8 [0x00#8, 0x00#8, 0x00#8] = 0x4B#8 ∧ crc8 [0x12#8, 0x34#8] = 0x37#8 := by decide +kernel

/-! ## The conversions -/

/-- V-CONV-1, 2, 3, 9, 10, 16 and 21. -/
theorem test_tempCenti : [0x0000#16, 0x0001#16, 0x0002#16, 0x41D1#16, 0x41D2#16, 0xABCD#16, 0xFFFF#16].map tempCenti =
    [-4500, -4500, -4499, -1, 0, 7244, 13000] := by decide

/-- V-CONV-13, 14, 7, 16 and 21. -/
theorem test_humCenti : [0x7FFC#16, 0x7FFD#16, 0x1234#16, 0xABCD#16, 0xFFFF#16].map humCenti =
    [4999, 5000, 711, 6711, 10000] := by decide

/-! ## The operations, one step each -/

/-- V-CRCOP-1. -/
theorem test_crcInit : field (fun t => (t.crcAcc, t.result, t.err))
    (step { asked 0x10000000000000#56 with crcAcc := 0x5A#8 }) = some (0xFF#8, 0x00FF#16, 0x00#8) := by decide

/-- V-CRCOP-4. -/
theorem test_crcFeed : field (fun t => (t.crcAcc, t.result))
    (step { asked 0x20EF0000000000#56 with crcAcc := 0x0C#8 }) = some (0x92#8, 0x0092#16) := by decide +kernel

/-- V-CRCOP-8. -/
theorem test_crcWord : field (fun t => (t.crcAcc, t.result))
    (step { asked 0x30BEEF00000000#56 with crcAcc := 0x0C#8 }) = some (0x0C#8, 0x0092#16) := by decide +kernel

/-- V-CRCOP-11. -/
theorem test_crcCheck_match : field (fun t => (t.result, t.err)) (step (asked 0x40BEEF92000000#56)) =
    some (0x0192#16, 0x00#8) := by decide +kernel

/-- V-CRCOP-12. -/
theorem test_crcCheck_mismatch : field (fun t => (t.result, t.err)) (step (asked 0x40BEEF93000000#56)) =
    some (0x0092#16, 0x00#8) := by decide +kernel

/-- V-ACC-1. -/
theorem test_measLoad : field (fun t => (t.meas, t.result, t.err)) (step (asked 0x5CDEAD98BEEF92#56)) =
    some (fixture, 0x0000#16, 0x00#8) := by decide

/-- V-ACC-3. -/
theorem test_measLoad_len7 : field (fun t => (t.meas, t.err)) (step (asked 0x5EDEAD98BEEF92#56)) =
    some (Meas.zero, 0x02#8) := by decide

/-- V-ACC-6. -/
theorem test_tempGet : field (fun t => (t.result, t.err))
    (step { measured with hostQueue := [.request 0x60000000000000#56] }) = some (0x29E2#16, 0x00#8) := by decide +kernel

/-- V-ACC-8. -/
theorem test_tempGet_after_reset : field (fun t => (t.result, t.err)) (step (asked 0x60000000000000#56)) =
    some (0x0000#16, 0x09#8) := by decide +kernel

/-- V-ACC-7. -/
theorem test_humGet : field (fun t => (t.result, t.err))
    (step { measured with hostQueue := [.request 0x70000000000000#56] }) = some (0x1D22#16, 0x00#8) := by decide +kernel

/-- V-ACC-12. -/
theorem test_humGet_mismatch : field (fun t => (t.result, t.err))
    (exec .humGet { State.reset with meas := { fixture with humidityCrc := 0x93#8 } }) = some (0x0000#16, 0x0D#8) := by
  decide +kernel

/-- V-ACC-22: d3 to d5 are don't-care. -/
theorem test_statusGet : field (fun t => (t.result, t.err)) (step (asked 0x86DEAD98FFFFFF#56)) =
    some (0xDEAD#16, 0x00#8) := by decide +kernel

/-- V-ACC-20: BUS_READ comes before the checksum. -/
theorem test_statusGet_len2 : field (fun t => t.err) (step (asked 0x84000000000000#56)) = some 0x02#8 := by decide

/-- V-ENC-7: ILLEGAL_OP comes before BUS_READ. -/
theorem test_illegal_first : field (fun t => (t.meas, t.err)) (step (asked 0x5BDEAD98BEEF92#56)) =
    some (Meas.zero, 0x03#8) := by decide

/-- R186: the sensor's Reset command leaves the stored measurement. -/
theorem test_sensorReset : field (fun t => t.meas)
    (step { measured with hostQueue := [.sendCommand 0x30A2#16] }) = some fixture := by decide

/-! ## The port -/

/-- P9: a request before the first reset. -/
theorem test_notReset : stop (step { unreset with hostQueue := [.request 0x10000000000000#56] }) = some .notReset := by
  decide

/-- P9: a request while BUSY = 1. -/
theorem test_hostOverlap : stop (step { waiting with hostQueue := [.present 0x10000000000000#56] }) = some .hostOverlap := by
  decide

/-- R182: reset abandons the request in flight. -/
theorem test_reset_while_busy : field (fun t => (t.busy, t.inFlight, t.result))
    (step { waiting with hostQueue := [.rst] }) = some (false, none, 0x0000#16) := by decide

/-- R31: the last cycle completes the request and clears BUSY. -/
theorem test_last_cycle : field (fun t => (t.busy, t.result)) (step { waiting with hostQueue := [.clock] }) =
    some (false, 0x0092#16) := by decide +kernel

/-- The host's word, placed by `withFetchWord`, is the first thing that runs after reset. -/
theorem test_withFetchWord : field (fun t => (t.crcAcc, t.hostQueue))
    (step (State.reset.withFetchWord 56 0x20BE0000000000)) = some (0x0C#8, []) := by decide

/-! ## Witnesses: states and operands that meet the hypotheses of each statement -/

theorem ready_asked (w : Req) : Ready (asked w) := ⟨rfl, rfl, rfl⟩

theorem witness_DecodeUndoesEncode : (Instr.measLoad 7 1 2 3 4 5 6).wellFormed = true := by decide

theorem witness_EncodeRestoresEveryReadField :
    decode (.request 0x6EFFFFFFFFFFFF#56) = .ok .tempGet ∧ decode (.command 0xF32D#16) = .ok .sensorReadStatus :=
  ⟨rfl, rfl⟩

theorem witness_DontCareFieldsAreIgnored : decodeRequest 0x20BE0000000000#56 = .ok (.crcFeed 0xBE#8) ∧
    0x20BE0000000000#56 &&& readMask (.crcFeed 0xBE#8) = 0x2EBE1122334455#56 &&& readMask (.crcFeed 0xBE#8) :=
  ⟨rfl, by decide⟩

theorem witness_DecodingIsTotalAndUnique :
    (1 ≤ (0x1#4).toNat ∧ (0x1#4).toNat ≤ 8) ∧ (1 ≤ (0x8#4).toNat ∧ (0x8#4).toNat ≤ 8) := by decide

theorem witness_StepRunsTheDecodedInstruction_request : Ready (asked 0x60000000000000#56) ∧
    (asked 0x60000000000000#56).hostQueue = .request 0x60000000000000#56 :: [] ∧
    decode (.request 0x60000000000000#56) = .ok .tempGet :=
  ⟨ready_asked _, rfl, rfl⟩

theorem witness_StepRunsTheDecodedInstruction_command :
    ({ State.reset with hostQueue := [.sendCommand 0x2400#16] } : State).hostQueue = .sendCommand 0x2400#16 :: [] ∧
    decode (.command 0x2400#16) = .ok .sensorMeasure :=
  ⟨rfl, rfl⟩

theorem witness_ReservedRequestsReportIllegalOp :
    (Ready (asked 0x11000000000000#56) ∧ (0x11000000000000#56).getLsbD 48 = true) ∧
    (Ready (asked 0x90000000000000#56) ∧ (0x90000000000000#56).extractLsb 55 52 ∈
      [0x0#4, 0x9#4, 0xA#4, 0xB#4, 0xC#4, 0xD#4, 0xE#4, 0xF#4]) :=
  ⟨⟨ready_asked _, by decide⟩, ready_asked _, by decide⟩

/-- One word for the last clause of each operation's statement: its op code and `rsv = 0`, with don't-care fields set. -/
theorem witness_operation_words :
    ((0x1EFFFFFFFFFFFF#56).extractLsb 55 52 = 0x1#4 ∧ (0x1EFFFFFFFFFFFF#56).getLsbD 48 = false) ∧
    ((0x2EFFFFFFFFFFFF#56).extractLsb 55 52 = 0x2#4 ∧ (0x2EFFFFFFFFFFFF#56).getLsbD 48 = false) ∧
    ((0x3EFFFFFFFFFFFF#56).extractLsb 55 52 = 0x3#4 ∧ (0x3EFFFFFFFFFFFF#56).getLsbD 48 = false) ∧
    ((0x4EFFFFFFFFFFFF#56).extractLsb 55 52 = 0x4#4 ∧ (0x4EFFFFFFFFFFFF#56).getLsbD 48 = false) ∧
    ((0x5CFFFFFFFFFFFF#56).extractLsb 55 52 = 0x5#4 ∧ (0x5CFFFFFFFFFFFF#56).getLsbD 48 = false) ∧
    ((0x6EFFFFFFFFFFFF#56).extractLsb 55 52 = 0x6#4 ∧ (0x6EFFFFFFFFFFFF#56).getLsbD 48 = false) ∧
    ((0x7EFFFFFFFFFFFF#56).extractLsb 55 52 = 0x7#4 ∧ (0x7EFFFFFFFFFFFF#56).getLsbD 48 = false) ∧
    ((0x86FFFFFFFFFFFF#56).extractLsb 55 52 = 0x8#4 ∧ (0x86FFFFFFFFFFFF#56).getLsbD 48 = false) := by decide

/-- Every request word asked of a block just reset meets the remaining hypotheses of those clauses. -/
theorem witness_operation_state (w : Req) : Ready (asked w) ∧ (asked w).hostQueue = .request w :: [] :=
  ⟨ready_asked w, rfl⟩

/-- The least and the greatest count of a word. -/
theorem witness_MeasLoadStoresSixBytesOrNone : ((0 : Nat) ≤ 7 ∧ (0 : Nat) ≠ 6) ∧ ((7 : Nat) ≤ 7 ∧ (7 : Nat) ≠ 6) := by decide

theorem witness_TempGetValidatesThenConverts :
    crc8 [measured.meas.temperatureMsb, measured.meas.temperatureLsb] = measured.meas.temperatureCrc ∧
    crc8 [State.reset.meas.temperatureMsb, State.reset.meas.temperatureLsb] ≠ State.reset.meas.temperatureCrc := by
  decide +kernel

theorem witness_HumGetValidatesThenConverts :
    crc8 [measured.meas.humidityMsb, measured.meas.humidityLsb] = measured.meas.humidityCrc ∧
    crc8 [State.reset.meas.humidityMsb, State.reset.meas.humidityLsb] ≠ State.reset.meas.humidityCrc := by
  decide +kernel

theorem witness_StatusGetValidatesAndReturnsTheWord :
    crc8 [0x00#8, 0x00#8] = 0x81#8 ∧ crc8 [0x00#8, 0x00#8] ≠ 0x00#8 ∧ ((2 : Nat) ≤ 7 ∧ (2 : Nat) ≠ 3) ∧
    ((7 : Nat) ≤ 7 ∧ (7 : Nat) ≠ 3) := by decide +kernel

theorem witness_SensorCommandsLeaveTheBlockAlone :
    ({ measured with hostQueue := [.sendCommand 0x3066#16] } : State).hostQueue = .sendCommand 0x3066#16 :: [] ∧
    0x3066#16 ∈ [0x30A2#16, 0xF32D#16, 0x3041#16, 0x2400#16, 0x306D#16, 0x3066#16] :=
  ⟨rfl, by decide⟩

theorem witness_WordChecksumSeparatesWords : (0 : Nat) < 8 ∧ (7 : Nat) < 8 := by decide

theorem witness_RoundNearestIsTheNearestInteger : (0 : Int) < 65535 ∧ (0 : Int) < 1 := by decide

theorem witness_ConversionsAreMonotoneOntoTheirRanges : (0x0000#16).toNat < (0xFFFF#16).toNat ∧
    ((-4500 : Int) ≤ -4500 ∧ (-4500 : Int) ≤ 13000) ∧ ((0 : Int) ≤ 10000 ∧ (10000 : Int) ≤ 10000) := by decide

/-- Raw 455 and 4073 are among the closest to a tie (41_convert.md R130). -/
theorem witness_NoConversionIsATie :
    |2 * (17500 * ((455#16).toNat : Int) - 294907500) - 2 * 65535 * (-4379)| ≤ 65535 ∧
    |20000 * ((4073#16).toNat : Int) - 2 * 65535 * 621| ≤ 65535 := by decide

/-- A reserved word, for OutcomesFollowTheTable and DecodingIsTotalAndUnique. -/
theorem witness_reserved_word : Ready (asked 0x5BDEAD98BEEF92#56) ∧ (0x5BDEAD98BEEF92#56).getLsbD 48 = true ∧
    (∀ i, decodeRequest 0x5BDEAD98BEEF92#56 ≠ .ok i) ∧
    ∃ t, step (asked 0x5BDEAD98BEEF92#56) = .next t :=
  ⟨ready_asked _, rfl, fun _ h => (by cases h), ⟨{ State.reset with err := 0x03#8 }, rfl⟩⟩

/-- For OnlyAWholeLoadChangesMeas and RepeatingARequestChangesNothing (`crcInit` is no feed). -/
theorem witness_exec_answers_next : ∃ t, exec .crcInit measured = .next t := ⟨_, rfl⟩

theorem witness_OnlyInitAndFeedTouchTheAccumulator :
    (∀ d0, Instr.crcInit ≠ .crcFeed d0) ∧ ∃ t, exec .crcInit measured = .next t :=
  ⟨fun _ h => (by cases h), ⟨_, rfl⟩⟩

theorem witness_AFailedRequestWritesErrAlone : ∃ t, Ready (asked 0x54000000000000#56) ∧
    step (asked 0x54000000000000#56) = .next t ∧ t.err.extractLsb 1 0 ≠ 0#2 :=
  ⟨{ State.reset with err := 0x02#8 }, ready_asked _, rfl, by decide⟩

/-- With `witness_operation_state` for the state. -/
theorem witness_ErrorsAreReportedByPriority :
    (0x5BDEAD98BEEF92#56).getLsbD 48 = true ∧
    ((0x84000000000000#56).getLsbD 48 = false ∧ (0x84000000000000#56).extractLsb 55 52 = 0x8#4 ∧
      (0x84000000000000#56).extractLsb 51 49 ≠ 3#3) := by decide

theorem witness_StatusGetSucceedsWhenCheckMatches :
    (∃ t, exec (.crcCheck 0x00#8 0x00#8 0x81#8) State.reset = .next t) ∧
    ∃ u, exec (.statusGet 3 0x00#8 0x00#8 0x81#8) State.reset = .next u :=
  ⟨⟨_, rfl⟩, by simp only [exec, execStatusGet, statusBytes, if_true]; exact ⟨_, accessGroup_of_valid (by decide +kernel) _ _ _⟩⟩

/-- For AccessorsSeeTheLatestLoad and NothingMeasuredIsAMismatch: requests without a successful load among them. -/
theorem witness_no_successful_load : ∀ e0 e1 e2 e3 e4 e5 : Byte,
    Instr.measLoad 6 e0 e1 e2 e3 e4 e5 ∉ [Instr.tempGet, .measLoad 5 1 2 3 4 5 6, .crcFeed 7] := by
  intro e0 e1 e2 e3 e4 e5 h
  simp at h

theorem witness_NothingMeasuredIsAMismatch : (asked 0x60000000000000#56).meas = State.reset.meas := rfl

theorem witness_ResetSetsEveryRegister :
    ({ waiting with hostQueue := [.rst] } : State).hostQueue = .rst :: [] := rfl

theorem witness_AViolationIsNotUndone_notReset :
    let t : State := { unreset with hostQueue := [.clock, .sendCommand 0x30A2#16, .request 0#56, .rst] }
    t.wasReset = false ∧ (∀ a ∈ [HostEvent.clock, .sendCommand 0x30A2#16], a = .clock ∨ ∃ c, a = .sendCommand c) ∧
      t.hostQueue = [.clock, .sendCommand 0x30A2#16] ++ .request 0#56 :: [.rst] :=
  ⟨rfl, by simp, rfl⟩

/-- Both ends of `k`: no cycle, and one cycle short of completion. -/
theorem witness_AViolationIsNotUndone_hostOverlap (k : Nat) :
    let t : State := { State.reset with
      hostQueue := .present 0#56 :: (List.replicate k .clock ++ .present 0#56 :: [.rst]) }
    Ready t ∧ 0 < Config.opLatency ∧ Config.opLatency - 1 < Config.opLatency :=
  ⟨⟨rfl, rfl, rfl⟩, opLatency_pos, Nat.sub_lt opLatency_pos Nat.one_pos⟩

theorem witness_BusyFromAcceptanceToCompletion :
    Ready { State.reset with hostQueue := [.present 0x30BEEF00000000#56] } ∧ 0 < Config.opLatency :=
  ⟨⟨rfl, rfl, rfl⟩, opLatency_pos⟩

theorem inv_waiting : Inv waiting where
  quietBeforeReset := by intro h; cases h
  busyIsInFlight := fun _ => rfl
  latencyBound := by intro f h; cases h; exact ⟨le_refl 1, opLatency_pos⟩
  errLegal := fun _ => by decide

/-- A busy block whose host keeps the protocol, and one whose host does not. -/
theorem witness_RunsStopExactlyWhenTheProtocolIsBroken :
    let kept : State := { waiting with hostQueue := [.sendCommand 0x2400#16, .clock, .request 0#56, .rst, .present 0#56] }
    let broken : State := { waiting with hostQueue := [.request 0#56] }
    (Inv kept ∧ keepsProtocol kept.wasReset kept.cyclesLeft kept.hostQueue) ∧
      (Inv broken ∧ ¬ keepsProtocol broken.wasReset broken.cyclesLeft broken.hostQueue) := by
  refine ⟨⟨⟨inv_waiting.1, inv_waiting.2, inv_waiting.3, inv_waiting.4⟩, ?_⟩,
    ⟨inv_waiting.1, inv_waiting.2, inv_waiting.3, inv_waiting.4⟩, ?_⟩ <;>
  simp [keepsProtocol, State.cyclesLeft, waiting, State.reset]

theorem witness_AcceptedRequestsComplete :
    Inv waiting ∧ waiting.wasReset = true ∧ waiting.busy = true ∧ waiting.hostQueue = [] :=
  ⟨inv_waiting, rfl, rfl, rfl⟩

theorem witness_RequestsComposeInIssueOrder :
    let is := [Instr.measLoad 6 1 2 3 4 5 6, .sensorReset, .humGet]
    Ready { State.reset with hostQueue := is.map (fun i => issue (encode i)) } ∧ ∀ i ∈ is, i.wellFormed = true :=
  ⟨⟨rfl, rfl, rfl⟩, by decide⟩

theorem witness_LatencyIsNotObservable : Ready measured := ⟨rfl, rfl, rfl⟩

theorem witness_EveryStepKeepsTheInvariant : Inv { waiting with hostQueue := [.rst] } ∧
    ∃ t, step { waiting with hostQueue := [.rst] } = .next t :=
  ⟨⟨inv_waiting.1, inv_waiting.2, inv_waiting.3, inv_waiting.4⟩, _, rfl⟩

/-- Two buffers that both fail both checksums: the host may not tell them apart. -/
theorem witness_UnverifiedBytesNeverReachTheHost :
    AlikeButUnverified State.reset { State.reset with meas := ⟨1, 2, 3, 4, 5, 6⟩ } :=
  ⟨rfl, Or.inr (by decide +kernel), Or.inr (by decide +kernel)⟩

theorem witness_PseudoInstructionsEndAsStated :
    Ready { State.reset with hostQueue := (assemble (.crcBytes [0xBE#8, 0xEF#8])).map issue } ∧
    Ready { State.reset with hostQueue := (assemble (.measDecode 1 2 3 4 5 6)).map issue } :=
  ⟨⟨rfl, rfl, rfl⟩, rfl, rfl, rfl⟩

end Sys2Proof.Tests
end

section
/-! Proofs about the system's scope (00_scope.md): what a step does with the word that the host issues. -/

namespace Sys2Proof.Machine

@[simp] theorem decode_request (w : Req) : decode (.request w) = decodeRequest w := rfl

@[simp] theorem decode_command (w : Half) : decode (.command w) = decodeCommand w := rfl

/-- A command word of the table runs the instruction it decodes to (30_encoding.md R80 to R86). -/
theorem sendCommand_of_ok {w : Half} {i : Instr} (h : decodeCommand w = .ok i) (s : State) :
    sendCommand w s = exec i s := by
  simp only [sendCommand, h]

/-- A command word does not pass the request port: no condition on the state (R80, R186). -/
theorem step_sendCommand {s : State} {w : Half} {q : List HostEvent} (h : s.hostQueue = .sendCommand w :: q) :
    step s = sendCommand w { s with hostQueue := q } :=
  step_of_cons h

/-- Settles O6: the step of either packet form, then the decoder's answer for its word. -/
theorem stepRunsTheDecodedInstruction : Obligations.StepRunsTheDecodedInstruction := by
  refine ⟨fun s w q i hready hqueue hdecode => ?request, fun s w q i hqueue hdecode => ?command⟩
  case request =>
    rw [decode_request] at hdecode
    exact (step_request_of_ready hready hqueue).trans (runRequest_of_ok hdecode _)
  case command =>
    rw [decode_command] at hdecode
    exact (step_sendCommand hqueue).trans (sendCommand_of_ok hdecode _)

end Sys2Proof.Machine
end

section
/-! What one instruction leaves in each register of the state table (10_state.md R22 to R30): a value per register, and
one equation that ties the four values to `exec`. Which registers a value can depend on stands in its type. -/

namespace Sys2Proof.Machine

/-- RESULT after a validating access: the converted word, or the old value where the checksum fails. -/
def accessResult (g : Group) (convert : Half → Half) (r : Half) : Half := if g.valid then convert g.raw else r

/-- ERR after a validating access. -/
def accessErr (g : Group) (field : ErrField) : Byte := if g.valid then 0x00#8 else errWord .checksumMismatch field

/-- CRC_ACC after an instruction. -/
def crcAccAfter (acc : Byte) : Instr → Byte
  | .crcInit => crcInitial
  | .crcFeed d0 => crcByte acc d0
  | .crcWord _ _ | .crcCheck _ _ _ | .measLoad _ _ _ _ _ _ _ | .tempGet | .humGet | .statusGet _ _ _ _ => acc
  | .sensorReset | .sensorReadStatus | .sensorClearStatus | .sensorMeasure | .sensorHeaterOn | .sensorHeaterOff => acc

/-- MEAS after an instruction. -/
def measAfter (m : Meas) : Instr → Meas
  | .measLoad len d0 d1 d2 d3 d4 d5 => if len = measBytes then ⟨d0, d1, d2, d3, d4, d5⟩ else m
  | .crcInit | .crcFeed _ | .crcWord _ _ | .crcCheck _ _ _ | .tempGet | .humGet | .statusGet _ _ _ _ => m
  | .sensorReset | .sensorReadStatus | .sensorClearStatus | .sensorMeasure | .sensorHeaterOn | .sensorHeaterOff => m

/-- RESULT after an instruction, from CRC_ACC, MEAS and RESULT before it. -/
def resultAfter (acc : Byte) (m : Meas) (r : Half) : Instr → Half
  | .crcInit => crcInitial.setWidth 16
  | .crcFeed d0 => (crcByte acc d0).setWidth 16
  | .crcWord d0 d1 => (crc8 [d0, d1]).setWidth 16
  | .crcCheck d0 d1 d2 => checkResult (crcOk d0 d1 d2) (crc8 [d0, d1])
  | .tempGet => accessResult (tempGroup m) (fun raw => toResult (tempCenti raw)) r
  | .humGet => accessResult (humGroup m) (fun raw => toResult (humCenti raw)) r
  | .statusGet len d0 d1 d2 => if len = statusBytes then accessResult ⟨d0, d1, d2⟩ (fun raw => raw) r else r
  | .measLoad _ _ _ _ _ _ _ => r
  | .sensorReset | .sensorReadStatus | .sensorClearStatus | .sensorMeasure | .sensorHeaterOn | .sensorHeaterOff => r

/-- ERR after an instruction, from MEAS and ERR before it; only a sensor command keeps the old ERR (R27, R186). -/
def errAfter (m : Meas) (e : Byte) : Instr → Byte
  | .crcInit | .crcFeed _ | .crcWord _ _ | .crcCheck _ _ _ => 0x00#8
  | .measLoad len _ _ _ _ _ _ => if len = measBytes then 0x00#8 else 0x02#8
  | .tempGet => accessErr (tempGroup m) .temperature
  | .humGet => accessErr (humGroup m) .humidity
  | .statusGet len d0 d1 d2 => if len = statusBytes then accessErr ⟨d0, d1, d2⟩ .status else 0x02#8
  | .sensorReset | .sensorReadStatus | .sensorClearStatus | .sensorMeasure | .sensorHeaterOn | .sensorHeaterOff => e

/-- The state after an instruction: the four registers above, and the port as it was. -/
def stateAfter (i : Instr) (s : State) : State :=
  { s with
    crcAcc := crcAccAfter s.crcAcc i
    meas := measAfter s.meas i
    result := resultAfter s.crcAcc s.meas s.result i
    err := errAfter s.meas s.err i }

theorem accessGroup_eq (g : Group) (field : ErrField) (convert : Half → Half) (s : State) :
    accessGroup g field convert s =
      .next { s with result := accessResult g convert s.result, err := accessErr g field } := by
  cases hg : g.valid with
  | true => simp only [accessGroup_of_valid hg, accessResult, accessErr, hg, if_true]
  | false => simp only [accessGroup_of_invalid hg, accessResult, accessErr, hg, Bool.false_eq_true, if_false]

theorem execMeasLoad_eq (len : Nat) (d0 d1 d2 d3 d4 d5 : Byte) (s : State) :
    execMeasLoad len d0 d1 d2 d3 d4 d5 s = .next (stateAfter (.measLoad len d0 d1 d2 d3 d4 d5) s) := by
  by_cases hlen : len = measBytes
  · simp only [execMeasLoad, if_pos hlen, complete_eq, stateAfter, measAfter, errAfter]; rfl
  · simp only [execMeasLoad, if_neg hlen, raiseErr_eq, stateAfter, measAfter, errAfter, errWord_busRead]; rfl

theorem execStatusGet_eq (len : Nat) (d0 d1 d2 : Byte) (s : State) :
    execStatusGet len d0 d1 d2 s = .next (stateAfter (.statusGet len d0 d1 d2) s) := by
  by_cases hlen : len = statusBytes
  · simp only [execStatusGet, if_pos hlen, accessGroup_eq, stateAfter, resultAfter, errAfter]; rfl
  · simp only [execStatusGet, if_neg hlen, raiseErr_eq, stateAfter, resultAfter, errAfter, errWord_busRead]; rfl

/-- Every instruction completes, in the state its register values give. -/
theorem exec_eq (i : Instr) (s : State) : exec i s = .next (stateAfter i s) := by
  cases i with
  | crcInit | crcFeed | crcWord | crcCheck => exact complete_eq _
  | measLoad len d0 d1 d2 d3 d4 d5 => exact execMeasLoad_eq len d0 d1 d2 d3 d4 d5 s
  | tempGet => exact accessGroup_eq (tempGroup s.meas) .temperature (fun raw => toResult (tempCenti raw)) s
  | humGet => exact accessGroup_eq (humGroup s.meas) .humidity (fun raw => toResult (humCenti raw)) s
  | statusGet len d0 d1 d2 => exact execStatusGet_eq len d0 d1 d2 s
  | sensorReset | sensorReadStatus | sensorClearStatus | sensorMeasure | sensorHeaterOn | sensorHeaterOff => rfl

/-- An instruction answers nothing but its own state afterwards. -/
theorem eq_stateAfter_of_exec {i : Instr} {s t : State} (h : exec i s = .next t) : t = stateAfter i s :=
  (Host.Outcome.next.inj ((exec_eq i s).symm.trans h)).symm

/-- CRC_ACC keeps its value, or the instruction is one of R22's two writers. -/
theorem crcAccAfter_cases (acc : Byte) (i : Instr) :
    crcAccAfter acc i = acc ∨ (i = .crcInit ∧ crcAccAfter acc i = 0xFF#8) ∨
      ∃ d0, i = .crcFeed d0 ∧ crcAccAfter acc i = crcByte acc d0 := by
  cases i with
  | crcInit => exact .inr (.inl ⟨rfl, rfl⟩)
  | crcFeed d0 => exact .inr (.inr ⟨d0, rfl, rfl⟩)
  | _ => exact .inl rfl

/-- RESULT depends on CRC_ACC only for R22's one reader. -/
theorem resultAfter_acc_irrelevant {i : Instr} (hi : ∀ d0, i ≠ .crcFeed d0) (acc acc' : Byte) (m : Meas) (r : Half) :
    resultAfter acc m r i = resultAfter acc' m r i := by
  cases i with
  | crcFeed d0 => exact absurd rfl (hi d0)
  | _ => rfl

/-- MEAS keeps its value, or the instruction is a load of six bytes (R24). -/
theorem measAfter_cases (m : Meas) (i : Instr) :
    measAfter m i = m ∨
      ∃ d0 d1 d2 d3 d4 d5, i = .measLoad 6 d0 d1 d2 d3 d4 d5 ∧ measAfter m i = ⟨d0, d1, d2, d3, d4, d5⟩ := by
  cases i with
  | measLoad len d0 d1 d2 d3 d4 d5 =>
    by_cases hlen : len = measBytes
    · subst hlen
      exact .inr ⟨d0, d1, d2, d3, d4, d5, rfl, rfl⟩
    · exact .inl (if_neg hlen)
  | _ => exact .inl rfl

theorem ok_mem_legalErrs : 0x00#8 ∈ legalErrs := by decide

theorem accessErr_mem_legalErrs (g : Group) {field : ErrField} (hfield : field ≠ .none) :
    accessErr g field ∈ legalErrs := by
  unfold accessErr
  split
  · decide
  · revert hfield; cases field <;> decide

/-- An instruction leaves one of R155's outcomes in ERR, where there was one. -/
theorem errAfter_mem_legalErrs (m : Meas) {e : Byte} (he : e ∈ legalErrs) (i : Instr) : errAfter m e i ∈ legalErrs := by
  cases i with
  | crcInit | crcFeed | crcWord | crcCheck => exact ok_mem_legalErrs
  | measLoad => simp only [errAfter]; split <;> decide
  | tempGet | humGet => exact accessErr_mem_legalErrs _ (by decide)
  | statusGet =>
    simp only [errAfter]
    split
    · exact accessErr_mem_legalErrs _ (by decide)
    · decide
  | sensorReset | sensorReadStatus | sensorClearStatus | sensorMeasure | sensorHeaterOn | sensorHeaterOff => exact he

/-- The old ERR matters to a sensor command alone, which keeps it (R27, R186). -/
theorem errAfter_err_irrelevant {i : Instr} (hi : i.isSensorCommand = false) (m : Meas) (e e' : Byte) :
    errAfter m e i = errAfter m e' i := by
  cases i with
  | sensorReset | sensorReadStatus | sensorClearStatus | sensorMeasure | sensorHeaterOn | sensorHeaterOff => cases hi
  | _ => rfl

/-- Settles O29: the writers of CRC_ACC, then its one reader. -/
theorem onlyInitAndFeedTouchTheAccumulator : Obligations.OnlyInitAndFeedTouchTheAccumulator := by
  refine ⟨fun i s t hexec => ?writers, fun i s t a hi hexec => ?reader⟩
  case writers =>
    obtain rfl := eq_stateAfter_of_exec hexec
    exact crcAccAfter_cases s.crcAcc i
  case reader =>
    obtain rfl := eq_stateAfter_of_exec hexec
    exact ⟨_, exec_eq i _, rfl, resultAfter_acc_irrelevant hi a s.crcAcc s.meas s.result, rfl⟩

/-- Settles O30. -/
theorem onlyAWholeLoadChangesMeas : Obligations.OnlyAWholeLoadChangesMeas := by
  intro i s t hexec
  obtain rfl := eq_stateAfter_of_exec hexec
  exact measAfter_cases s.meas i

/-- Settles O31: `stateAfter` writes four registers and no field of the port. -/
theorem instructionsLeaveThePortAlone : Obligations.InstructionsLeaveThePortAlone :=
  fun i s => ⟨stateAfter i s, exec_eq i s, rfl, rfl, rfl, rfl⟩

/-- Settles O42: each reset value of R34 is written out in `State.reset`. -/
theorem resetStateHasTheResetValues : Obligations.ResetStateHasTheResetValues :=
  ⟨rfl, rfl, rfl, rfl, rfl⟩

end Sys2Proof.Machine
end

section
/-! The port, case by case, for the proofs about a step: a request word's two meanings, an admitted and a refused host
action, and the cycles of a request in flight (10_state.md R31, 60_exceptions.md R158). -/

namespace Sys2Proof.Machine

/-- No request word stands for a sensor command (30_encoding.md R62, R80). -/
theorem isSensorCommand_of_decodeRequest {w : Req} {i : Instr} (h : decodeRequest w = .ok i) :
    i.isSensorCommand = false := by
  unfold decodeRequest at h
  split at h
  · cases h
  · split at h <;> cases h <;> rfl

/-- A request word means one instruction in every state, or ILLEGAL_OP in every state (R66, R67). -/
theorem runRequest_cases (w : Req) :
    (∃ i : Instr, i.isSensorCommand = false ∧ ∀ s, runRequest w s = .next (stateAfter i s)) ∨
      ∀ s, runRequest w s = .next { s with err := 0x03#8 } := by
  cases h : decodeRequest w with
  | ok i => exact .inl ⟨i, isSensorCommand_of_decodeRequest h, fun s => (runRequest_of_ok h s).trans (exec_eq i s)⟩
  | error e => exact .inr (runRequest_of_error h)

/-- A request word completes and leaves BUSY to the port. -/
theorem runRequest_completes (w : Req) (s : State) : ∃ t, runRequest w s = .next t ∧ t.busy = s.busy := by
  obtain ⟨i, -, hrun⟩ | hrun := runRequest_cases w
  · exact ⟨_, hrun s, rfl⟩
  · exact ⟨_, hrun s, rfl⟩

theorem serve_request_of_fault {s : State} {f : Fault} (h : requestFault s = some f) (w : Req) :
    serve (.request w) s = .fault f := by
  simp only [serve, h]

theorem serve_request_of_admitted {s : State} (h : requestFault s = none) (w : Req) :
    serve (.request w) s = runRequest w s := by
  simp only [serve, h]

theorem serve_present_of_fault {s : State} {f : Fault} (h : requestFault s = some f) (w : Req) :
    serve (.present w) s = .fault f := by
  simp only [serve, h]

theorem serve_present_of_admitted {s : State} (h : requestFault s = none) (w : Req) :
    serve (.present w) s = .next (acceptRequest w s) := by
  simp only [serve, h]

theorem serve_sendCommand (w : Half) (s : State) : serve (.sendCommand w) s = .next s := sendCommand_eq w s

/-- The earlier ERR takes no part in a request word's outcome. -/
theorem runRequest_err_irrelevant (w : Req) (s : State) (e : Byte) :
    runRequest w { s with err := e } = runRequest w s := by
  obtain ⟨i, hi, hrun⟩ | hrun := runRequest_cases w
  · rw [hrun, hrun, stateAfter, stateAfter, errAfter_err_irrelevant hi s.meas e s.err]
  · rw [hrun, hrun]

theorem serve_request_err_irrelevant (w : Req) (s : State) (e : Byte) :
    serve (.request w) { s with err := e } = serve (.request w) s := by
  have hsame : requestFault { s with err := e } = requestFault s := rfl
  cases hf : requestFault s with
  | some f => rw [serve_request_of_fault hf, serve_request_of_fault (hsame.trans hf)]
  | none =>
    rw [serve_request_of_admitted hf, serve_request_of_admitted (hsame.trans hf)]
    exact runRequest_err_irrelevant w s e

/-- Settles O35: the port asks for BUSY and the reset mark, and the request's outcome writes all of ERR. -/
theorem earlierErrorsDoNotMatter : Obligations.EarlierErrorsDoNotMatter := by
  intro s w q e
  rw [step_of_cons rfl, step_of_cons rfl]
  exact serve_request_err_irrelevant w { s with hostQueue := q } e

/-- While the host does nothing, `k` cycles short of completion change the count alone. -/
theorem run_of_waiting {s : State} {w : Req} (k : Nat) {n : Nat} (hn : 1 ≤ n) (hq : s.hostQueue = [])
    (hs : s.inFlight = some ⟨w, n + k⟩) : run k s = .next { s with inFlight := some ⟨w, n⟩ } := by
  induction k generalizing s with
  | zero =>
    have hsame : some ⟨w, n⟩ = s.inFlight := hs.symm
    rw [run_zero, hsame]
  | succ k ih =>
    have hstep : step s = .next { s with inFlight := some ⟨w, n + k⟩ } :=
      (step_of_empty hq).trans (clockCycle_of_waiting hs (by simp only; omega))
    rw [run_succ_of_next hstep]
    exact ih hq rfl

/-- Below OP_LATENCY cycles after its acceptance, a request is still in flight and no register but BUSY has changed. -/
theorem run_present_of_ready {s : State} {w : Req} (hs : Ready s) (hq : s.hostQueue = [.present w]) {k n : Nat}
    (hn : 1 ≤ n) (hk : n + k = Config.opLatency) :
    run (1 + k) s = .next { s with hostQueue := [], busy := true, inFlight := some ⟨w, n⟩ } := by
  have haccept : run 1 s = .next (acceptRequest w { s with hostQueue := [] }) :=
    (run_one s).trans (step_present_of_ready hs hq)
  rw [run_add_of_next k haccept]
  exact run_of_waiting k hn rfl (by rw [hk]; rfl)

/-- At OP_LATENCY cycles after its acceptance, a request has run on the block as it was before. -/
theorem run_present_to_completion {s : State} {w : Req} (hs : Ready s) (hq : s.hostQueue = [.present w]) :
    run (1 + Config.opLatency) s = runRequest w { s with hostQueue := [] } := by
  have hlast := run_present_of_ready hs hq (le_refl 1) (Nat.add_sub_cancel' opLatency_pos)
  have hidle : { s with hostQueue := [], busy := false, inFlight := none } = { s with hostQueue := [] } := by
    rw [← hs.idle, ← hs.nothingInFlight]
  calc run (1 + Config.opLatency) s
      = run (1 + (Config.opLatency - 1) + 1) s := by rw [Nat.add_assoc, Nat.sub_add_cancel opLatency_pos]
    _ = step { s with hostQueue := [], busy := true, inFlight := some ⟨w, 1⟩ } :=
        (run_add_of_next 1 hlast).trans (run_one _)
    _ = runRequest w { s with hostQueue := [], busy := false, inFlight := none } :=
        (step_of_empty rfl).trans (clockCycle_of_last (f := ⟨w, 1⟩) rfl (le_refl 1))
    _ = runRequest w { s with hostQueue := [] } := by rw [hidle]

/-- Settles O45: the cycles before completion, then the completing one against the atomic request. -/
theorem busyFromAcceptanceToCompletion : Obligations.BusyFromAcceptanceToCompletion := by
  refine ⟨fun s w k hs hq hk => ?waiting, fun s w hs hq => ?completion⟩
  case waiting =>
    exact ⟨_, run_present_of_ready hs hq (Nat.sub_pos_of_lt hk) (Nat.sub_add_cancel hk.le), rfl, rfl, rfl, rfl, rfl⟩
  case completion =>
    obtain ⟨t, hrun, hbusy⟩ := runRequest_completes w { s with hostQueue := [] }
    have hatomic : step { s with hostQueue := [.request w] } = runRequest w { s with hostQueue := [] } :=
      step_request_of_ready ⟨hs.wasReset, hs.idle, hs.nothingInFlight⟩ rfl
    exact ⟨t, (run_present_to_completion hs hq).trans hrun, hbusy.trans hs.idle, hatomic.trans hrun⟩

end Sys2Proof.Machine
end

section
/-! The invariant of the block: one preservation lemma per action of the port (10_state.md R27, R29, R31). -/

namespace Sys2Proof.Machine

/-- The invariant speaks of four fields; another state with these four keeps it, given a legal ERR. -/
theorem Inv.of_port_eq {s t : State} (hs : Inv s) (hbusy : t.busy = s.busy) (hreset : t.wasReset = s.wasReset)
    (hflight : t.inFlight = s.inFlight) (herr : s.wasReset = true → t.err ∈ legalErrs) : Inv t where
  quietBeforeReset := by rw [hreset, hflight]; exact hs.quietBeforeReset
  busyIsInFlight := by rw [hreset, hbusy, hflight]; exact hs.busyIsInFlight
  latencyBound := by rw [hflight]; exact hs.latencyBound
  errLegal := by rw [hreset]; exact herr

theorem Inv.withHostQueue {s : State} (hs : Inv s) (q : List HostEvent) : Inv { s with hostQueue := q } :=
  hs.of_port_eq rfl rfl rfl hs.errLegal

theorem Inv.applyReset (s : State) : Inv (applyReset s) where
  quietBeforeReset _ := rfl
  busyIsInFlight _ := rfl
  latencyBound _ h := nomatch h
  errLegal _ := ok_mem_legalErrs

theorem illegalOp_mem_legalErrs : 0x03#8 ∈ legalErrs := by decide

/-- A request word leaves one of R155's outcomes in ERR and the port alone. -/
theorem Inv.runRequest {s t : State} (hs : Inv s) {w : Req} (hrun : runRequest w s = .next t) : Inv t := by
  obtain ⟨i, -, hi⟩ | herr := runRequest_cases w
  · cases (hi s).symm.trans hrun
    exact hs.of_port_eq rfl rfl rfl fun hr => errAfter_mem_legalErrs s.meas (hs.errLegal hr) i
  · cases (herr s).symm.trans hrun
    exact hs.of_port_eq rfl rfl rfl fun _ => illegalOp_mem_legalErrs

/-- Acceptance starts the OP_LATENCY cycles; it asks for an earlier reset. -/
theorem Inv.acceptRequest {s : State} (hs : Inv s) (hreset : s.wasReset = true) (w : Req) : Inv (acceptRequest w s) where
  quietBeforeReset h := absurd (hreset.symm.trans h) (by decide)
  busyIsInFlight _ := rfl
  latencyBound f hf := by cases hf; exact ⟨opLatency_pos, le_refl _⟩
  errLegal := hs.errLegal

/-- The block at the completion of a request, before the request's writes. -/
theorem Inv.idle {s : State} (hs : Inv s) : Inv { s with busy := false, inFlight := none } where
  quietBeforeReset _ := rfl
  busyIsInFlight _ := rfl
  latencyBound _ h := nomatch h
  errLegal := hs.errLegal

/-- One cycle of a request that is not at its last. -/
theorem Inv.waiting {s : State} (hs : Inv s) {f : InFlight} (hf : s.inFlight = some f) (hleft : ¬ f.cyclesLeft ≤ 1) :
    Inv { s with inFlight := some { f with cyclesLeft := f.cyclesLeft - 1 } } where
  quietBeforeReset h := absurd ((hs.quietBeforeReset h).symm.trans hf) nofun
  busyIsInFlight h := (hs.busyIsInFlight h).trans (by rw [hf]; rfl)
  latencyBound g hg := by
    obtain ⟨-, hbound⟩ := hs.latencyBound f hf
    cases hg
    simp only
    omega
  errLegal := hs.errLegal

theorem Inv.clockCycle {s t : State} (hs : Inv s) (h : clockCycle s = .next t) : Inv t := by
  cases hf : s.inFlight with
  | none => cases (clockCycle_of_idle hf).symm.trans h; exact hs
  | some f =>
    by_cases hleft : f.cyclesLeft ≤ 1
    · exact hs.idle.runRequest ((clockCycle_of_last hf hleft).symm.trans h)
    · cases (clockCycle_of_waiting hf hleft).symm.trans h
      exact hs.waiting hf hleft

theorem Inv.serve {s t : State} (hs : Inv s) {e : HostEvent} (h : serve e s = .next t) : Inv t := by
  cases e with
  | rst => cases h; exact Inv.applyReset s
  | request w =>
    cases hf : requestFault s with
    | some f => cases (serve_request_of_fault hf w).symm.trans h
    | none => exact hs.runRequest ((serve_request_of_admitted hf w).symm.trans h)
  | present w =>
    cases hf : requestFault s with
    | some f => cases (serve_present_of_fault hf w).symm.trans h
    | none =>
      obtain ⟨hreset, -⟩ := (requestFault_eq_none_iff s).mp hf
      cases (serve_present_of_admitted hf w).symm.trans h
      exact hs.acceptRequest hreset w
  | clock => exact hs.clockCycle h
  | sendCommand w => cases (serve_sendCommand w s).symm.trans h; exact hs

/-- Settles O49: the idle host's cycle, or the host's next action with itself taken off the queue. -/
theorem everyStepKeepsTheInvariant : Obligations.EveryStepKeepsTheInvariant := by
  intro s t hs hstep
  cases hq : s.hostQueue with
  | nil => exact hs.clockCycle ((step_of_empty hq).symm.trans hstep)
  | cons e q => exact (hs.withHostQueue q).serve ((step_of_cons hq).symm.trans hstep)

end Sys2Proof.Machine
end

section
/-! What the host may not tell apart: two blocks whose MEAS differs only in groups that verify in neither answer every step
alike (10_state.md R24, 41_convert.md R125, R126). -/

namespace Sys2Proof.Machine

/-- Two groups are the same, or verify in neither place. -/
def GroupAlike (g h : Group) : Prop := g = h ∨ (g.valid = false ∧ h.valid = false)

/-- Two measurement buffers that differ only in groups that do not verify. -/
structure MeasAlike (m n : Meas) : Prop where
  /-- What TEMP_GET reads. -/
  temperature : GroupAlike (tempGroup m) (tempGroup n)
  /-- What HUM_GET reads. -/
  humidity : GroupAlike (humGroup m) (humGroup n)

theorem MeasAlike.refl (m : Meas) : MeasAlike m m := ⟨.inl rfl, .inl rfl⟩

/-- Alike states are one state with one of two alike buffers. -/
theorem alikeButUnverified_iff (s t : State) :
    AlikeButUnverified s t ↔ ∃ m, MeasAlike s.meas m ∧ t = { s with meas := m } := by
  constructor
  · rintro ⟨hothers, htemp, hhum⟩
    exact ⟨t.meas, ⟨htemp, hhum⟩, by rw [← hothers]⟩
  · rintro ⟨m, ⟨htemp, hhum⟩, rfl⟩
    exact ⟨rfl, htemp, hhum⟩

theorem AlikeButUnverified.withMeas {s : State} {m : Meas} (hm : MeasAlike s.meas m) :
    AlikeButUnverified s { s with meas := m } :=
  (alikeButUnverified_iff s _).mpr ⟨m, hm, rfl⟩

theorem AlikeButUnverified.inFlight_eq {s t : State} (h : AlikeButUnverified s t) : t.inFlight = s.inFlight := by
  obtain ⟨m, -, rfl⟩ := (alikeButUnverified_iff s t).mp h
  rfl

theorem AlikeButUnverified.hostQueue_eq {s t : State} (h : AlikeButUnverified s t) : t.hostQueue = s.hostQueue := by
  obtain ⟨m, -, rfl⟩ := (alikeButUnverified_iff s t).mp h
  rfl

theorem AlikeButUnverified.withHostQueue {s t : State} (h : AlikeButUnverified s t) (q : List HostEvent) :
    AlikeButUnverified { s with hostQueue := q } { t with hostQueue := q } := by
  obtain ⟨m, hm, rfl⟩ := (alikeButUnverified_iff s t).mp h
  exact withMeas (s := { s with hostQueue := q }) hm

theorem AlikeButUnverified.withInFlight {s t : State} (h : AlikeButUnverified s t) (p : Option InFlight) :
    AlikeButUnverified { s with inFlight := p } { t with inFlight := p } := by
  obtain ⟨m, hm, rfl⟩ := (alikeButUnverified_iff s t).mp h
  exact withMeas (s := { s with inFlight := p }) hm

theorem AlikeButUnverified.withPort {s t : State} (h : AlikeButUnverified s t) (b : Bool) (p : Option InFlight) :
    AlikeButUnverified { s with busy := b, inFlight := p } { t with busy := b, inFlight := p } := by
  obtain ⟨m, hm, rfl⟩ := (alikeButUnverified_iff s t).mp h
  exact withMeas (s := { s with busy := b, inFlight := p }) hm

theorem AlikeButUnverified.withErr {s t : State} (h : AlikeButUnverified s t) (e : Byte) :
    AlikeButUnverified { s with err := e } { t with err := e } := by
  obtain ⟨m, hm, rfl⟩ := (alikeButUnverified_iff s t).mp h
  exact withMeas (s := { s with err := e }) hm

/-- A validating access gives nothing of a group that does not verify to RESULT. -/
theorem GroupAlike.accessResult_eq {g h : Group} (hgh : GroupAlike g h) (convert : Half → Half) (r : Half) :
    accessResult g convert r = accessResult h convert r := by
  obtain rfl | ⟨hg, hh⟩ := hgh
  · rfl
  · simp only [accessResult, hg, hh, Bool.false_eq_true, if_false]

/-- A validating access reports the same outcome for two alike groups. -/
theorem GroupAlike.accessErr_eq {g h : Group} (hgh : GroupAlike g h) (field : ErrField) :
    accessErr g field = accessErr h field := by
  obtain rfl | ⟨hg, hh⟩ := hgh
  · rfl
  · simp only [accessErr, hg, hh]

theorem MeasAlike.resultAfter_eq {m n : Meas} (hmn : MeasAlike m n) (acc : Byte) (r : Half) (i : Instr) :
    resultAfter acc m r i = resultAfter acc n r i := by
  cases i with
  | tempGet => exact hmn.temperature.accessResult_eq (fun raw => toResult (tempCenti raw)) r
  | humGet => exact hmn.humidity.accessResult_eq (fun raw => toResult (humCenti raw)) r
  | _ => rfl

theorem MeasAlike.errAfter_eq {m n : Meas} (hmn : MeasAlike m n) (e : Byte) (i : Instr) :
    errAfter m e i = errAfter n e i := by
  cases i with
  | tempGet => exact hmn.temperature.accessErr_eq _
  | humGet => exact hmn.humidity.accessErr_eq _
  | _ => rfl

/-- A whole load makes the buffers the same; any other instruction leaves them as they were. -/
theorem MeasAlike.measAfter {m n : Meas} (hmn : MeasAlike m n) (i : Instr) : MeasAlike (measAfter m i) (measAfter n i) := by
  cases i with
  | measLoad len d0 d1 d2 d3 d4 d5 =>
    simp only [Machine.measAfter]
    split
    · exact .refl _
    · exact hmn
  | _ => exact hmn

/-- Two answers the host may not tell apart. -/
def ResultsAlike (a b : Result) : Prop :=
  (∃ s t, a = .next s ∧ b = .next t ∧ AlikeButUnverified s t) ∨ ∃ f, a = .fault f ∧ b = .fault f

theorem AlikeButUnverified.next {s t : State} (h : AlikeButUnverified s t) : ResultsAlike (.next s) (.next t) :=
  .inl ⟨s, t, rfl, rfl, h⟩

theorem AlikeButUnverified.stateAfter {s t : State} (h : AlikeButUnverified s t) (i : Instr) :
    AlikeButUnverified (stateAfter i s) (stateAfter i t) := by
  obtain ⟨m, hm, rfl⟩ := (alikeButUnverified_iff s t).mp h
  refine (alikeButUnverified_iff _ _).mpr ⟨Machine.measAfter m i, hm.measAfter i, ?_⟩
  simp only [Machine.stateAfter, hm.resultAfter_eq s.crcAcc s.result i, hm.errAfter_eq s.err i]

theorem AlikeButUnverified.runRequest {s t : State} (h : AlikeButUnverified s t) (w : Req) :
    ResultsAlike (runRequest w s) (runRequest w t) := by
  obtain ⟨i, -, hi⟩ | herr := runRequest_cases w
  · rw [hi, hi]
    exact (h.stateAfter i).next
  · rw [herr, herr]
    exact (h.withErr 0x03#8).next

theorem AlikeButUnverified.clockCycle {s t : State} (h : AlikeButUnverified s t) :
    ResultsAlike (clockCycle s) (clockCycle t) := by
  cases hf : s.inFlight with
  | none =>
    rw [clockCycle_of_idle hf, clockCycle_of_idle (h.inFlight_eq.trans hf)]
    exact h.next
  | some f =>
    by_cases hleft : f.cyclesLeft ≤ 1
    · rw [clockCycle_of_last hf hleft, clockCycle_of_last (h.inFlight_eq.trans hf) hleft]
      exact (h.withPort false none).runRequest f.req
    · rw [clockCycle_of_waiting hf hleft, clockCycle_of_waiting (h.inFlight_eq.trans hf) hleft]
      exact (h.withInFlight (some { f with cyclesLeft := f.cyclesLeft - 1 })).next

theorem AlikeButUnverified.requestFault_eq {s t : State} (h : AlikeButUnverified s t) :
    requestFault t = requestFault s := by
  obtain ⟨m, -, rfl⟩ := (alikeButUnverified_iff s t).mp h
  rfl

theorem AlikeButUnverified.applyReset {s t : State} (h : AlikeButUnverified s t) :
    AlikeButUnverified (applyReset s) (applyReset t) := by
  obtain ⟨m, -, rfl⟩ := (alikeButUnverified_iff s t).mp h
  exact .withMeas (s := Machine.applyReset s) (.refl _)

theorem AlikeButUnverified.serve {s t : State} (h : AlikeButUnverified s t) (e : HostEvent) :
    ResultsAlike (serve e s) (serve e t) := by
  cases e with
  | rst => exact h.applyReset.next
  | request w =>
    cases hf : requestFault s with
    | some f =>
      exact .inr ⟨f, serve_request_of_fault hf w, serve_request_of_fault (h.requestFault_eq.trans hf) w⟩
    | none =>
      rw [serve_request_of_admitted hf, serve_request_of_admitted (h.requestFault_eq.trans hf)]
      exact h.runRequest w
  | present w =>
    cases hf : requestFault s with
    | some f =>
      exact .inr ⟨f, serve_present_of_fault hf w, serve_present_of_fault (h.requestFault_eq.trans hf) w⟩
    | none =>
      rw [serve_present_of_admitted hf, serve_present_of_admitted (h.requestFault_eq.trans hf)]
      exact (h.withPort true (some ⟨w, Config.opLatency⟩)).next
  | clock => exact h.clockCycle
  | sendCommand w =>
    rw [serve_sendCommand, serve_sendCommand]
    exact h.next

theorem AlikeButUnverified.step {s t : State} (h : AlikeButUnverified s t) : ResultsAlike (step s) (step t) := by
  cases hq : s.hostQueue with
  | nil =>
    rw [step_of_empty hq, step_of_empty (h.hostQueue_eq.trans hq)]
    exact h.clockCycle
  | cons e q =>
    rw [step_of_cons hq, step_of_cons (h.hostQueue_eq.trans hq)]
    exact (h.withHostQueue q).serve e

theorem AlikeButUnverified.outputs_eq {s t : State} (h : AlikeButUnverified s t) : s.outputs = t.outputs := by
  obtain ⟨m, -, rfl⟩ := (alikeButUnverified_iff s t).mp h
  rfl

/-- Settles O52: MEAS is no output, and alike states answer a step alike. -/
theorem unverifiedBytesNeverReachTheHost : Obligations.UnverifiedBytesNeverReachTheHost :=
  fun _ _ h => ⟨h.outputs_eq, h.step⟩

end Sys2Proof.Machine
end

section
/-! The block as the host's memory (20_memory.md R48, R50): each register after an instruction is run twice, and the
host's queue of issued instructions as their composition. -/

namespace Sys2Proof.Machine

/-- A second validating access of the same group finds the RESULT of the first. -/
theorem accessResult_idem (g : Group) (convert : Half → Half) (r : Half) :
    accessResult g convert (accessResult g convert r) = accessResult g convert r := by
  cases hg : g.valid with
  | true => simp only [accessResult, hg, if_true]
  | false => simp only [accessResult, hg, Bool.false_eq_true, if_false]

theorem crcAccAfter_idem {i : Instr} (hi : ∀ d0, i ≠ .crcFeed d0) (acc : Byte) :
    crcAccAfter (crcAccAfter acc i) i = crcAccAfter acc i := by
  cases i with
  | crcFeed d0 => exact absurd rfl (hi d0)
  | _ => rfl

theorem measAfter_idem (m : Meas) (i : Instr) : measAfter (measAfter m i) i = measAfter m i := by
  obtain hkept | ⟨d0, d1, d2, d3, d4, d5, rfl, -⟩ := measAfter_cases m i
  · rw [hkept, hkept]
  · rfl

/-- The one instruction that writes MEAS does not read it, so the new MEAS gives the same RESULT. -/
theorem resultAfter_measAfter (acc : Byte) (m : Meas) (r : Half) (i : Instr) :
    resultAfter acc (measAfter m i) r i = resultAfter acc m r i := by
  cases i <;> rfl

/-- The one instruction that writes MEAS does not read it, so the new MEAS gives the same ERR. -/
theorem errAfter_measAfter (m : Meas) (e : Byte) (i : Instr) : errAfter (measAfter m i) e i = errAfter m e i := by
  cases i <;> rfl

/-- From the same CRC_ACC and MEAS, the old RESULT is kept or overwritten whatever it was. -/
theorem resultAfter_idem (acc : Byte) (m : Meas) (r : Half) (i : Instr) :
    resultAfter acc m (resultAfter acc m r i) i = resultAfter acc m r i := by
  cases i with
  | tempGet | humGet => simp only [resultAfter, accessResult_idem]
  | statusGet len d0 d1 d2 =>
    by_cases hlen : len = statusBytes
    · simp only [resultAfter, if_pos hlen, accessResult_idem]
    · simp only [resultAfter, if_neg hlen]
  | _ => rfl

theorem errAfter_idem (m : Meas) (e : Byte) (i : Instr) : errAfter m (errAfter m e i) i = errAfter m e i := by
  cases i <;> rfl

/-- Only CRC_FEED reads what it writes: any other instruction run twice is the instruction run once (R48). -/
theorem stateAfter_idem {i : Instr} (hi : ∀ d0, i ≠ .crcFeed d0) (s : State) :
    stateAfter i (stateAfter i s) = stateAfter i s := by
  have hresult : resultAfter (crcAccAfter s.crcAcc i) (measAfter s.meas i) (resultAfter s.crcAcc s.meas s.result i) i =
      resultAfter s.crcAcc s.meas s.result i := by
    rw [resultAfter_acc_irrelevant hi _ s.crcAcc, resultAfter_measAfter, resultAfter_idem]
  have herr : errAfter (measAfter s.meas i) (errAfter s.meas s.err i) i = errAfter s.meas s.err i := by
    rw [errAfter_measAfter, errAfter_idem]
  simp only [stateAfter, crcAccAfter_idem hi, measAfter_idem, hresult, herr]

/-- Settles O36: the answered state is `stateAfter`, which is idempotent register by register. -/
theorem repeatingARequestChangesNothing : Obligations.RepeatingARequestChangesNothing := by
  intro i s t hi hexec
  obtain rfl := eq_stateAfter_of_exec hexec
  rw [exec_eq, stateAfter_idem hi]

/-- A count that fits `len` comes back from its 3-bit field (30_encoding.md R63). -/
theorem toNat_ofNat_of_lenFits {len : Nat} (h : lenFits len = true) : (BitVec.ofNat 3 len).toNat = len := by
  have hle : len ≤ 7 := of_decide_eq_true h
  exact (BitVec.toNat_ofNat len 3).trans (Nat.mod_eq_of_lt (by omega))

/-- The decoder reads a well-formed instruction back from its word. -/
theorem decode_encode {i : Instr} (h : i.wellFormed = true) : decode (encode i) = .ok i := by
  cases i with
  | crcInit | crcFeed | crcWord | crcCheck | tempGet | humGet => exact decodeRequest_packReq ..
  | measLoad len d0 d1 d2 d3 d4 d5 =>
    calc decode (encode (.measLoad len d0 d1 d2 d3 d4 d5))
        = .ok (.measLoad (BitVec.ofNat 3 len).toNat d0 d1 d2 d3 d4 d5) := decodeRequest_packReq ..
      _ = .ok (.measLoad len d0 d1 d2 d3 d4 d5) := by rw [toNat_ofNat_of_lenFits h]
  | statusGet len d0 d1 d2 =>
    calc decode (encode (.statusGet len d0 d1 d2))
        = .ok (.statusGet (BitVec.ofNat 3 len).toNat d0 d1 d2) := decodeRequest_packReq ..
      _ = .ok (.statusGet len d0 d1 d2) := by rw [toNat_ofNat_of_lenFits h]
  | sensorReset | sensorReadStatus | sensorClearStatus | sensorMeasure | sensorHeaterOn | sensorHeaterOff => rfl

/-- A ready block runs the instruction of an issued packet of either form. -/
theorem step_issue {s : State} {p : Packet} {i : Instr} {q : List HostEvent} (hs : Ready s)
    (hq : s.hostQueue = issue p :: q) (hdecode : decode p = .ok i) : step s = exec i { s with hostQueue := q } := by
  obtain ⟨hrequest, hcommand⟩ := stepRunsTheDecodedInstruction
  cases p with
  | request w => exact hrequest s w q i hs hq hdecode
  | command w => exact hcommand s w q i hq hdecode

/-- An instruction leaves a ready block ready, whatever the host does next. -/
theorem Ready.stateAfter {s : State} (hs : Ready s) (i : Instr) (q : List HostEvent) :
    Ready (stateAfter i { s with hostQueue := q }) :=
  ⟨hs.wasReset, hs.idle, hs.nothingInFlight⟩

theorem execAll_cons (i : Instr) (is : List Instr) (s : State) : execAll (i :: is) s = execAll is (stateAfter i s) := by
  simp only [execAll, exec_eq]

/-- Settles O47, by induction on the issued instructions: one step runs the first and leaves the rest on the queue. -/
theorem requestsComposeInIssueOrder : Obligations.RequestsComposeInIssueOrder := by
  intro is
  induction is with
  | nil =>
    intro s _ _ hq
    rw [← show s.hostQueue = [] from hq]
    rfl
  | cons i is ih =>
    intro s hs hwf hq
    obtain ⟨hi, his⟩ := List.forall_mem_cons.mp hwf
    have hstep := (step_issue hs hq (decode_encode hi)).trans (exec_eq i _)
    calc run (is.length + 1) s
        = run is.length (stateAfter i { s with hostQueue := is.map (fun j => issue (encode j)) }) :=
          run_succ_of_next hstep
      _ = execAll is (stateAfter i { s with hostQueue := [] }) := ih _ (hs.stateAfter i _) his rfl
      _ = execAll (i :: is) { s with hostQueue := [] } := (execAll_cons i is _).symm

end Sys2Proof.Machine
end

section
/-! The decoder's answer as a condition on the word (30_encoding.md R62, R69): which op code and which operand fields a
request word carries for each instruction, and the fields that `readMask` keeps. -/

namespace Sys2Proof

/-- The op code and the operands that a request word carries for an instruction, row by row (R62). -/
def Carries (w : Req) : Instr → Prop
  | .crcInit => reqOp w = 0x1#4
  | .crcFeed d0 => reqOp w = 0x2#4 ∧ reqLane w 0 = d0
  | .crcWord d0 d1 => reqOp w = 0x3#4 ∧ reqLane w 0 = d0 ∧ reqLane w 1 = d1
  | .crcCheck d0 d1 d2 => reqOp w = 0x4#4 ∧ reqLane w 0 = d0 ∧ reqLane w 1 = d1 ∧ reqLane w 2 = d2
  | .measLoad len d0 d1 d2 d3 d4 d5 =>
    reqOp w = 0x5#4 ∧ (reqLen w).toNat = len ∧ reqLane w 0 = d0 ∧ reqLane w 1 = d1 ∧ reqLane w 2 = d2 ∧
      reqLane w 3 = d3 ∧ reqLane w 4 = d4 ∧ reqLane w 5 = d5
  | .tempGet => reqOp w = 0x6#4
  | .humGet => reqOp w = 0x7#4
  | .statusGet len d0 d1 d2 =>
    reqOp w = 0x8#4 ∧ (reqLen w).toNat = len ∧ reqLane w 0 = d0 ∧ reqLane w 1 = d1 ∧ reqLane w 2 = d2
  | .sensorReset | .sensorReadStatus | .sensorClearStatus | .sensorMeasure | .sensorHeaterOn | .sensorHeaterOff => False

/-- A word decodes to the instruction whose op code and operands it carries, under `REQ[48] = 0` (R69). -/
theorem decodeRequest_eq_ok_iff (w : Req) (i : Instr) :
    decodeRequest w = .ok i ↔ reqRsv w = false ∧ Carries w i := by
  constructor
  case mp =>
    intro h
    unfold decodeRequest at h
    split at h
    · cases h
    · next hrsv =>
      refine ⟨Bool.eq_false_of_not_eq_true hrsv, ?_⟩
      split at h <;> cases h <;> simp only [Carries, and_self, *]
  case mpr =>
    rintro ⟨hrsv, h⟩
    cases i with
    | crcInit | tempGet | humGet => simp only [decodeRequest, hrsv, show reqOp w = _ from h]; rfl
    | crcFeed | crcWord | crcCheck | measLoad | statusGet =>
      obtain ⟨hop, hoperands⟩ := h
      simp [decodeRequest, hrsv, hop, hoperands]
    | sensorReset | sensorReadStatus | sensorClearStatus | sensorMeasure | sensorHeaterOn | sensorHeaterOff => cases h

/-- Whether a row reads `len` (R62). -/
def readsLen : Instr → Bool
  | .measLoad _ _ _ _ _ _ _ | .statusGet _ _ _ _ => true
  | .crcInit | .crcFeed _ | .crcWord _ _ | .crcCheck _ _ _ | .tempGet | .humGet => false
  | .sensorReset | .sensorReadStatus | .sensorClearStatus | .sensorMeasure | .sensorHeaterOn | .sensorHeaterOff => false

/-- How many lanes a row reads, from lane 0 up (R62). -/
def lanesRead : Instr → Nat
  | .crcFeed _ => 1
  | .crcWord _ _ => 2
  | .crcCheck _ _ _ | .statusGet _ _ _ _ => 3
  | .measLoad _ _ _ _ _ _ _ => 6
  | .crcInit | .tempGet | .humGet => 0
  | .sensorReset | .sensorReadStatus | .sensorClearStatus | .sensorMeasure | .sensorHeaterOn | .sensorHeaterOff => 0

/-- A field's mask: all of it, or nothing. -/
def fieldMask (n : Nat) (kept : Bool) : BitVec n := if kept then BitVec.allOnes n else 0

theorem and_fieldMask {n : Nat} (v : BitVec n) (kept : Bool) : v &&& fieldMask n kept = if kept then v else 0 := by
  cases kept with
  | false => exact BitVec.and_zero
  | true => exact BitVec.and_allOnes

/-- A request row's mask, field by field. -/
theorem readMask_eq_packReq {i : Instr} (hi : i.isSensorCommand = false) :
    readMask i = packReq (BitVec.allOnes 4) (fieldMask 3 (readsLen i)) (BitVec.allOnes 1)
      (fieldMask 8 (0 < lanesRead i)) (fieldMask 8 (1 < lanesRead i)) (fieldMask 8 (2 < lanesRead i))
      (fieldMask 8 (3 < lanesRead i)) (fieldMask 8 (4 < lanesRead i)) (fieldMask 8 (5 < lanesRead i)) := by
  cases i with
  | sensorReset | sensorReadStatus | sensorClearStatus | sensorMeasure | sensorHeaterOn | sensorHeaterOff => cases hi
  | _ => simp +decide only [readMask, readsLen, lanesRead]

/-- What `readMask` leaves of a request word: op, rsv and the fields its row reads, the others at 0 (R68). -/
theorem and_readMask_eq_packReq (w : Req) {i : Instr} (hi : i.isSensorCommand = false) :
    w &&& readMask i = packReq (reqOp w) (if readsLen i then reqLen w else 0) (BitVec.ofBool (reqRsv w))
      (if 0 < lanesRead i then reqLane w 0 else 0) (if 1 < lanesRead i then reqLane w 1 else 0)
      (if 2 < lanesRead i then reqLane w 2 else 0) (if 3 < lanesRead i then reqLane w 3 else 0)
      (if 4 < lanesRead i then reqLane w 4 else 0) (if 5 < lanesRead i then reqLane w 5 else 0) := by
  conv_lhs => rw [← packReq_fields w, readMask_eq_packReq hi, packReq_and]
  simp only [and_fieldMask, BitVec.and_allOnes, decide_eq_true_eq]

theorem isSensorCommand_of_carries {w : Req} {i : Instr} (h : Carries w i) : i.isSensorCommand = false := by
  cases i with
  | sensorReset | sensorReadStatus | sensorClearStatus | sensorMeasure | sensorHeaterOn | sensorHeaterOff => cases h
  | _ => rfl

/-- The word of a carried instruction is the carrying word, masked to the fields that the row reads (R62, R68). -/
theorem encode_of_carries {w : Req} {i : Instr} (hrsv : reqRsv w = false) (h : Carries w i) :
    encode i = .request (w &&& readMask i) := by
  rw [and_readMask_eq_packReq w (isSensorCommand_of_carries h), hrsv]
  cases i with
  | crcInit | tempGet | humGet => rw [show reqOp w = _ from h]; rfl
  | crcFeed | crcWord | crcCheck =>
    obtain ⟨hop, hlanes⟩ := h
    simp [encode, readsLen, lanesRead, hop, hlanes]
  | measLoad | statusGet =>
    obtain ⟨hop, rfl, hlanes⟩ := h
    simp [encode, readsLen, lanesRead, hop, hlanes]
  | sensorReset | sensorReadStatus | sensorClearStatus | sensorMeasure | sensorHeaterOn | sensorHeaterOff => cases h

/-- The fields that `readMask` clears take no part in what a word carries for that row (R68). -/
theorem carries_and_readMask (w : Req) (i : Instr) : Carries (w &&& readMask i) i ↔ Carries w i := by
  cases i with
  | crcInit | crcFeed | crcWord | crcCheck | measLoad | tempGet | humGet | statusGet =>
    rw [and_readMask_eq_packReq w rfl]
    simp [Carries, readsLen, lanesRead, reqOp_packReq, reqLen_packReq, reqLane0_packReq, reqLane1_packReq,
      reqLane2_packReq, reqLane3_packReq, reqLane4_packReq, reqLane5_packReq]
  | sensorReset | sensorReadStatus | sensorClearStatus | sensorMeasure | sensorHeaterOn | sensorHeaterOff =>
    exact Iff.rfl

end Sys2Proof
end

section
/-! The request encoding (30_encoding.md): decoder against encoder, the words that decode, and the words that are
ILLEGAL_OP. -/

namespace Sys2Proof.Machine

/-- Settles O1: the fields of a packed word are the instruction's operands, and a count that fits keeps its value. -/
theorem decodeUndoesEncode : Obligations.DecodeUndoesEncode := fun _ hwf => decode_encode hwf

theorem encode_of_decodeRequest {w : Req} {i : Instr} (h : decodeRequest w = .ok i) :
    encode i = .request (w &&& readMask i) := by
  obtain ⟨hrsv, hcarries⟩ := (decodeRequest_eq_ok_iff w i).mp h
  exact encode_of_carries hrsv hcarries

theorem encode_of_decodeCommand {w : Half} {i : Instr} (h : decodeCommand w = .ok i) : encode i = .command w := by
  unfold decodeCommand at h
  split at h <;> cases h <;> rfl

/-- Settles O2, one format after the other. -/
theorem encodeRestoresEveryReadField : Obligations.EncodeRestoresEveryReadField :=
  ⟨fun _ _ => encode_of_decodeRequest, fun _ _ => encode_of_decodeCommand⟩

/-- Clearing the fields that a row does not read neither makes nor breaks a word of that row (R68). -/
theorem decodeRequest_and_readMask (w : Req) (i : Instr) :
    decodeRequest (w &&& readMask i) = .ok i ↔ decodeRequest w = .ok i := by
  rw [decodeRequest_eq_ok_iff, decodeRequest_eq_ok_iff, carries_and_readMask]
  refine and_congr_left fun hcarries => ?_
  rw [and_readMask_eq_packReq w (isSensorCommand_of_carries hcarries), reqRsv_packReq, BitVec.getLsbD_ofBool]
  simp

theorem decodeRequest_eq_of_and_readMask_eq {w w' : Req} {i : Instr} (h : decodeRequest w = .ok i)
    (hmask : w &&& readMask i = w' &&& readMask i) : decodeRequest w' = .ok i := by
  rw [← decodeRequest_and_readMask w' i, ← hmask, decodeRequest_and_readMask]
  exact h

theorem serve_request_eq_of_decodeRequest_eq {w w' : Req} (h : decodeRequest w' = decodeRequest w) (s : State) :
    serve (.request w') s = serve (.request w) s := by
  simp only [serve, runRequest, h]

/-- Settles O3: words that agree on the read fields decode alike, and the port asks nothing else of a word. -/
theorem dontCareFieldsAreIgnored : Obligations.DontCareFieldsAreIgnored := by
  refine ⟨fun s q w w' i hdecode hmask => ?same, fun len d0 d1 d2 d3 d4 d5 => ?free⟩
  case same =>
    have hdecode' := decodeRequest_eq_of_and_readMask_eq hdecode hmask
    rw [step_of_cons rfl, step_of_cons rfl]
    exact serve_request_eq_of_decodeRequest_eq (hdecode'.trans hdecode.symm) _
  case free => exact ⟨decodeRequest_packReq .., decodeRequest_packReq .., decodeRequest_packReq ..⟩

/-- The op code that a word carries is a row of the table, counted from 1, with the instruction's mnemonic (R62). -/
theorem opRow_of_carries {w : Req} {i : Instr} (h : Carries w i) :
    1 ≤ (reqOp w).toNat ∧ (reqOp w).toNat ≤ 8 ∧
      (opcodeTable.map OpRow.mnemonic)[(reqOp w).toNat - 1]? = some i.mnemonic := by
  cases i with
  | crcInit | tempGet | humGet =>
    rw [show reqOp w = _ from h]
    exact ⟨by decide, by decide, rfl⟩
  | crcFeed | crcWord | crcCheck | measLoad | statusGet =>
    obtain ⟨hop, -⟩ := h
    rw [hop]
    exact ⟨by decide, by decide, rfl⟩
  | sensorReset | sensorReadStatus | sensorClearStatus | sensorMeasure | sensorHeaterOn | sensorHeaterOff => cases h

theorem assignedOp_cases {op : BitVec 4} (hlow : 1 ≤ op.toNat) (hhigh : op.toNat ≤ 8) :
    op = 0x1#4 ∨ op = 0x2#4 ∨ op = 0x3#4 ∨ op = 0x4#4 ∨ op = 0x5#4 ∨ op = 0x6#4 ∨ op = 0x7#4 ∨ op = 0x8#4 := by
  revert op; decide

/-- A word with an assigned op code carries an instruction of that row. -/
theorem exists_carries {w : Req} (hlow : 1 ≤ (reqOp w).toNat) (hhigh : (reqOp w).toNat ≤ 8) : ∃ i, Carries w i := by
  obtain h | h | h | h | h | h | h | h := assignedOp_cases hlow hhigh
  · exact ⟨.crcInit, h⟩
  · exact ⟨.crcFeed _, h, rfl⟩
  · exact ⟨.crcWord _ _, h, rfl, rfl⟩
  · exact ⟨.crcCheck _ _ _, h, rfl, rfl, rfl⟩
  · exact ⟨.measLoad _ _ _ _ _ _ _, h, rfl, rfl, rfl, rfl, rfl, rfl, rfl⟩
  · exact ⟨.tempGet, h⟩
  · exact ⟨.humGet, h⟩
  · exact ⟨.statusGet _ _ _ _, h, rfl, rfl, rfl, rfl⟩

/-- The words of the assigned operations (R69). -/
theorem exists_decodeRequest_iff (w : Req) :
    (∃ i, decodeRequest w = .ok i) ↔ reqRsv w = false ∧ 1 ≤ (reqOp w).toNat ∧ (reqOp w).toNat ≤ 8 := by
  constructor
  case mp =>
    rintro ⟨i, h⟩
    obtain ⟨hrsv, hcarries⟩ := (decodeRequest_eq_ok_iff w i).mp h
    obtain ⟨hlow, hhigh, -⟩ := opRow_of_carries hcarries
    exact ⟨hrsv, hlow, hhigh⟩
  case mpr =>
    rintro ⟨hrsv, hlow, hhigh⟩
    obtain ⟨i, hcarries⟩ := exists_carries hlow hhigh
    exact ⟨i, (decodeRequest_eq_ok_iff w i).mpr ⟨hrsv, hcarries⟩⟩

/-- An op code at its place in a request word, as the packing of its fields. -/
theorem setWidth_shiftLeft_eq_packReq (op : BitVec 4) : op.setWidth 56 <<< 52 = packReq op 0 0 0 0 0 0 0 0 := by
  revert op; decide

/-- A word's op and rsv bits, as the packing of its fields. -/
theorem and_opMask_eq_packReq (w : Req) :
    w &&& 0xF1000000000000#56 = packReq (reqOp w) 0 (BitVec.ofBool (reqRsv w)) 0 0 0 0 0 0 :=
  and_readMask_eq_packReq w (i := .crcInit) rfl

/-- The mask and match of a table row, in fields (R69). -/
theorem and_opMask_eq_iff (w : Req) (op : BitVec 4) :
    w &&& 0xF1000000000000#56 = op.setWidth 56 <<< 52 ↔ reqRsv w = false ∧ reqOp w = op := by
  rw [and_opMask_eq_packReq, setWidth_shiftLeft_eq_packReq]
  constructor
  case mp =>
    intro h
    obtain ⟨hop, -, hrsv, -⟩ := packReq_inj _ _ _ _ _ _ _ _ _ h
    exact ⟨by simpa using hrsv, hop⟩
  case mpr =>
    rintro ⟨hrsv, rfl⟩
    rw [hrsv]; rfl

/-- No two rows of the table have one mnemonic. -/
theorem nodup_mnemonics : (opcodeTable.map OpRow.mnemonic).Nodup := by decide

theorem opRow_inj {op op' : BitVec 4} (h : 1 ≤ op.toNat) (h' : 1 ≤ op'.toNat) (hle : op.toNat ≤ 8)
    (hrow : (opcodeTable.map OpRow.mnemonic)[op.toNat - 1]? = (opcodeTable.map OpRow.mnemonic)[op'.toNat - 1]?) :
    op = op' := by
  have hlt : op.toNat - 1 < (opcodeTable.map OpRow.mnemonic).length := by
    simp only [opcodeTable, List.map_cons, List.map_nil, List.length_cons, List.length_nil]; omega
  have hindex := (List.getElem?_inj hlt nodup_mnemonics).mp hrow
  exact BitVec.eq_of_toNat_eq (by omega)

/-- The table's mask and match find the word's row (R69). -/
theorem and_opMask_eq_iff_exists_decodeRequest (w : Req) {op : BitVec 4} (hlow : 1 ≤ op.toNat) (hhigh : op.toNat ≤ 8) :
    w &&& 0xF1000000000000#56 = op.setWidth 56 <<< 52 ↔
      ∃ i, decodeRequest w = .ok i ∧ (opcodeTable.map OpRow.mnemonic)[op.toNat - 1]? = some i.mnemonic := by
  rw [and_opMask_eq_iff]
  constructor
  case mp =>
    rintro ⟨hrsv, rfl⟩
    obtain ⟨i, hcarries⟩ := exists_carries hlow hhigh
    obtain ⟨-, -, hrow⟩ := opRow_of_carries hcarries
    exact ⟨i, (decodeRequest_eq_ok_iff w i).mpr ⟨hrsv, hcarries⟩, hrow⟩
  case mpr =>
    rintro ⟨i, hdecode, hrow⟩
    obtain ⟨hrsv, hcarries⟩ := (decodeRequest_eq_ok_iff w i).mp hdecode
    obtain ⟨hlow', hhigh', hrow'⟩ := opRow_of_carries hcarries
    exact ⟨hrsv, opRow_inj hlow' hlow hhigh' (hrow'.trans hrow.symm)⟩

/-- A set `REQ[48]` is asked before the op code (R67, R69). -/
theorem decodeRequest_of_rsv {w : Req} (h : reqRsv w = true) : decodeRequest w = .error .reservedBit := if_pos h

/-- A ready block answers a word that decodes to nothing with ILLEGAL_OP alone (R66, R67). -/
theorem step_of_not_decoded {s : State} {w : Req} {q : List HostEvent} (hs : Ready s)
    (hq : s.hostQueue = .request w :: q) (h : ¬ ∃ i, decodeRequest w = .ok i) :
    step s = .next { s with hostQueue := q, err := 0x03#8 } := by
  cases hdecode : decodeRequest w with
  | ok i => exact absurd ⟨i, hdecode⟩ h
  | error e => exact (step_request_of_ready hs hq).trans (runRequest_of_error hdecode _)

/-- Settles O4: the assigned words, the mask and match, the reserved bit, then the step of either kind of word. -/
theorem decodingIsTotalAndUnique : Obligations.DecodingIsTotalAndUnique := by
  refine ⟨exists_decodeRequest_iff, fun w _ => and_opMask_eq_iff_exists_decodeRequest w, fun _ => decodeRequest_of_rsv,
    fun s w q hs hq => ?step⟩
  by_cases hdecoded : ∃ i, decodeRequest w = .ok i
  · obtain ⟨i, hdecode⟩ := hdecoded
    exact .inl ⟨i, hdecode, (step_request_of_ready hs hq).trans (runRequest_of_ok hdecode _)⟩
  · exact .inr ⟨not_exists.mp hdecoded, step_of_not_decoded hs hq hdecoded⟩

theorem not_assigned_of_reservedOp {op : BitVec 4}
    (h : op ∈ [0x0#4, 0x9#4, 0xA#4, 0xB#4, 0xC#4, 0xD#4, 0xE#4, 0xF#4]) : ¬ (1 ≤ op.toNat ∧ op.toNat ≤ 8) := by
  revert op; decide

/-- Settles O7: such a word decodes to nothing. -/
theorem reservedRequestsReportIllegalOp : Obligations.ReservedRequestsReportIllegalOp := by
  intro s w q hs hq hreserved
  refine step_of_not_decoded hs hq fun hdecoded => ?_
  obtain ⟨hrsv, hop⟩ := (exists_decodeRequest_iff w).mp hdecoded
  obtain hset | hmem := hreserved
  · exact absurd (hset.symm.trans hrsv) (by decide)
  · exact not_assigned_of_reservedOp hmem hop

/-- Settles O5: each word is a literal, which the decoder evaluates. -/
theorem writtenWordsDecode : Obligations.WrittenWordsDecode := ⟨rfl, rfl, rfl, rfl, rfl, rfl, rfl⟩

end Sys2Proof.Machine
end

section
/-! The assembler lines and the pseudo-instructions (30_encoding.md R72, R73). -/

namespace Sys2Proof.Machine

/-- Settles O54: each line's word is the encoding of its instruction; an explicit `.len` goes to its field and back. -/
theorem listedBytesSetLenAndLanes : Obligations.ListedBytesSetLenAndLanes := by
  refine ⟨rfl, fun _ => rfl, fun _ _ => rfl, fun _ _ _ => rfl, fun b0 b1 b2 b3 b4 b5 => ?measLoad,
    fun n b0 b1 b2 b3 b4 b5 => ?measLoadLen, rfl, rfl, fun msb lsb c => ?statusGet, fun n msb lsb c => ?statusGetLen,
    fun msb lsb => ?statusGetTwoBytes, fun _ => rfl⟩
  case measLoadLen | statusGetLen =>
    simp only [assemble, encode, lenOf, Option.getD_some, BitVec.ofNat_toNat, BitVec.setWidth_eq]
    rfl
  case measLoad | statusGet | statusGetTwoBytes => simp [assemble, encode, lenOf, laneOf, packReq, headerByte]

/-- The state at the end of `crc.bytes`, for the bytes fed so far: CRC_ACC and RESULT hold one checksum. -/
def streamState (acc : Byte) (s : State) : State :=
  { s with crcAcc := acc, result := 0x00#8 ++ acc, err := 0x00#8 }

theorem stateAfter_crcInit (s : State) : stateAfter .crcInit s = streamState crcInitial s := rfl

theorem stateAfter_crcFeed (b : Byte) (acc : Byte) (s : State) :
    stateAfter (.crcFeed b) (streamState acc s) = streamState (crcByte acc b) s := by
  simp only [stateAfter, streamState, crcAccAfter, measAfter, resultAfter, errAfter, setWidth_byte_eq]

/-- CRC_FEED over a list of bytes folds them into CRC_ACC (40_crc.md R102, R105). -/
theorem execAll_crcFeed (bytes : List Byte) (acc : Byte) (s : State) :
    execAll (bytes.map .crcFeed) (streamState acc s) = .next (streamState (bytes.foldl crcByte acc) s) := by
  induction bytes generalizing acc with
  | nil => rfl
  | cons b bytes ih =>
    rw [List.map_cons, execAll_cons, stateAfter_crcFeed, List.foldl_cons]
    exact ih _

theorem run_crcBytes {s : State} {bytes : List Byte} (hs : Ready s)
    (hq : s.hostQueue = (assemble (.crcBytes bytes)).map issue) :
    run (bytes.length + 1) s = .next (streamState (crc8 bytes) { s with hostQueue := [] }) := by
  have hrun := requestsComposeInIssueOrder (.crcInit :: bytes.map .crcFeed) s hs (by simp [Instr.wellFormed])
    (by rw [hq]; simp [assemble])
  calc run (bytes.length + 1) s
      = execAll (.crcInit :: bytes.map .crcFeed) { s with hostQueue := [] } := by simpa using hrun
    _ = execAll (bytes.map .crcFeed) (streamState crcInitial { s with hostQueue := [] }) := execAll_cons ..
    _ = .next (streamState (crc8 bytes) { s with hostQueue := [] }) := execAll_crcFeed ..

theorem run_measDecode {s : State} {b0 b1 b2 b3 b4 b5 : Byte} (hs : Ready s)
    (hq : s.hostQueue = (assemble (.measDecode b0 b1 b2 b3 b4 b5)).map issue) :
    run 3 s = .next (stateAfter .humGet (stateAfter .tempGet
      { s with meas := ⟨b0, b1, b2, b3, b4, b5⟩, hostQueue := [] })) := by
  have hrun := requestsComposeInIssueOrder [.measLoad 6 b0 b1 b2 b3 b4 b5, .tempGet, .humGet] s hs
    (by simp [Instr.wellFormed, lenFits]) hq
  rw [execAll_cons, execAll_cons, execAll_cons] at hrun
  exact hrun

/-- Settles O53: the expansions, then each expansion's run as the composition of its instructions. -/
theorem pseudoInstructionsEndAsStated : Obligations.PseudoInstructionsEndAsStated := by
  refine ⟨fun bytes => ?crcBytes, fun b0 b1 b2 b3 b4 b5 => rfl, fun s bytes => run_crcBytes,
    fun s b0 b1 b2 b3 b4 b5 hs hq => ⟨_, _, exec_eq _ _, exec_eq _ _, run_measDecode hs hq, rfl⟩⟩
  simp only [assemble, List.singleton_append, List.map_eq_flatMap]

end Sys2Proof.Machine
end

section
/-! The checksum function (40_crc.md R100 to R103, R108, R109): its bit step as a linear bijection of the byte, and what
follows for the checksum of a sequence and of a word. -/

namespace Sys2Proof.Machine

theorem getLsbD_seven_eq (a : Byte) : a.getLsbD 7 = decide (128 ≤ a.toNat) :=
  (BitVec.msb_eq_getLsbD_last a).symm.trans (BitVec.msb_eq_decide a)

/-- The shift drops the top bit, which would be worth 256 after it. -/
theorem toNat_byte_shiftLeft_one (a : Byte) :
    (a <<< 1).toNat = if 128 ≤ a.toNat then 2 * a.toNat - 256 else 2 * a.toNat := by
  have hlt : a.toNat < 256 := a.isLt
  rw [BitVec.toNat_shiftLeft, Nat.shiftLeft_eq]
  split <;> omega

/-- The bit step on numbers (R100). -/
theorem toNat_crcStep (a : Byte) :
    (crcStep a).toNat = if 128 ≤ a.toNat then (2 * a.toNat - 256) ^^^ 0x31 else 2 * a.toNat := by
  have hshift := toNat_byte_shiftLeft_one a
  by_cases htop : 128 ≤ a.toNat
  · rw [if_pos htop] at hshift ⊢
    rw [crcStep_of_top ((getLsbD_seven_eq a).trans (decide_eq_true htop)), BitVec.toNat_xor, hshift]
    rfl
  · rw [if_neg htop] at hshift ⊢
    rw [crcStep_of_not_top ((getLsbD_seven_eq a).trans (decide_eq_false htop)), hshift]

/-- Settles O8: the bit step on numbers; the other clauses are the equations of the definitions. -/
theorem checksumFollowsItsDefinition : Obligations.ChecksumFollowsItsDefinition :=
  ⟨toNat_crcStep, fun _ _ => rfl, crc8_nil, crc8_snoc, fun _ _ _ => decide_eq_true_iff⟩

/-- Settles O9, one byte step after the other. -/
theorem canonicalVectorHolds : Obligations.CanonicalVectorHolds := by
  have hfirst : crcByte crcInitial 0xBE#8 = 0x0C#8 := by decide
  have hsecond : crcByte 0x0C#8 0xEF#8 = 0x92#8 := by decide
  rw [Obligations.CanonicalVectorHolds, crc8_pair, hfirst, hsecond]

/-- What a bit step adds to the shift: the low byte of the polynomial, when the top bit is set (R100). -/
def crcFeedback (top : Bool) : Byte := if top then 0x31#8 else 0

theorem crcFeedback_xor (p q : Bool) : crcFeedback (p ^^ q) = crcFeedback p ^^^ crcFeedback q := by
  revert p q; decide

theorem crcStep_eq_shiftLeft_xor (a : Byte) : crcStep a = a <<< 1 ^^^ crcFeedback (a.getLsbD 7) := by
  cases htop : a.getLsbD 7 with
  | true => exact crcStep_of_top htop
  | false => exact (crcStep_of_not_top htop).trans BitVec.xor_zero.symm

/-- A bit step is linear: its shift and its feedback are (R103(c)). -/
theorem crcStep_xor (x y : Byte) : crcStep (x ^^^ y) = crcStep x ^^^ crcStep y := by
  simp only [crcStep_eq_shiftLeft_xor, BitVec.shiftLeft_xor_distrib, BitVec.getLsbD_xor, crcFeedback_xor]
  ac_rfl

theorem crcStep8_xor (x y : Byte) : crcStep8 (x ^^^ y) = crcStep8 x ^^^ crcStep8 y := by
  simp only [crcStep8, crcStep_xor]

theorem crcStep8_zero : crcStep8 0 = 0 := rfl

theorem crcByte_zero_left (b : Byte) : crcByte 0 b = crcStep8 b := congrArg crcStep8 BitVec.zero_xor

/-- Settles O10: R103(c)'s T is `crcStep8`. -/
theorem byteTransformIsLinear : Obligations.ByteTransformIsLinear := by
  refine ⟨fun a b => ?dependsOnXor, fun x y => ?additive, crcStep8_zero⟩
  case dependsOnXor => exact (crcByte_zero_left (a ^^^ b)).symm
  case additive => simp only [crcByte_zero_left, crcStep8_xor]

theorem crcByte_self (a : Byte) : crcByte a a = 0 := by
  rw [crcByte, BitVec.xor_self]
  exact crcStep8_zero

/-- Settles O11: the checksum meets itself in the accumulator. -/
theorem residueIsZero : Obligations.ResidueIsZero := fun bytes => by
  rw [crc8_snoc, crcByte_self]
  rfl

/-- A bit step loses nothing: the polynomial is odd and a shifted byte is even, so a step to 0 had no feedback. -/
theorem eq_zero_of_crcStep_eq_zero {a : Byte} (h : crcStep a = 0) : a = 0 := by
  have hnum := (toNat_crcStep a).symm.trans (congrArg BitVec.toNat h)
  split at hnum
  · have hodd : 2 * a.toNat - 256 = 0x31 := Nat.xor_eq_zero_iff.mp hnum
    omega
  · have hzero : 2 * a.toNat = 0 := hnum
    exact BitVec.eq_of_toNat_eq (show a.toNat = 0 by omega)

theorem crcStep_injective : Function.Injective crcStep := by
  intro x y hxy
  have hzero : crcStep (x ^^^ y) = 0 := by rw [crcStep_xor, hxy, BitVec.xor_self]; rfl
  exact BitVec.xor_eq_zero_iff.mp (eq_zero_of_crcStep_eq_zero hzero)

theorem crcStep8_injective : Function.Injective crcStep8 := crcStep_injective.iterate 8

/-- From one accumulator, two bytes with one result are the same byte. -/
theorem crcByte_right_inj (a : Byte) {b b' : Byte} : crcByte a b = crcByte a b' ↔ b = b' :=
  crcStep8_injective.eq_iff.trans (BitVec.xor_right_inj a)

/-- With one byte, two accumulators with one result are the same accumulator. -/
theorem crcByte_left_inj (b : Byte) {a a' : Byte} : crcByte a b = crcByte a' b ↔ a = a' :=
  crcStep8_injective.eq_iff.trans (BitVec.xor_left_inj b)

theorem crcByte_right_bijective (a : Byte) : Function.Bijective (crcByte a) :=
  Function.Injective.bijective_of_finite fun _ _ => (crcByte_right_inj a).mp

theorem xor_oneBit_ne_self (b : Byte) {n : Nat} (hn : n < 8) : b ^^^ (1#8 <<< n) ≠ b := by
  have hbit : 1#8 <<< n ≠ 0#8 := by revert n; decide
  exact fun h => hbit (xor_left_eq_self_iff.mp h)

/-- Settles O12: the byte step is a bijection of the byte, and injective in the accumulator that the msb leaves. -/
theorem wordChecksumSeparatesWords : Obligations.WordChecksumSeparatesWords := by
  refine ⟨fun msb => (crcByte_right_bijective (crcByte crcInitial msb)).existsUnique,
    fun msb lsb n hn => ⟨?lsb, ?msb⟩⟩
  case lsb =>
    rw [crc8_pair, crc8_pair, Ne, crcByte_right_inj]
    exact xor_oneBit_ne_self lsb hn
  case msb =>
    rw [crc8_pair, crc8_pair, Ne, crcByte_left_inj, crcByte_right_inj]
    exact xor_oneBit_ne_self msb hn

end Sys2Proof.Machine
end

section
/-! The checksum operations (40_crc.md R104 to R108): each as an instruction, and as the step of every request word that
carries it. -/

namespace Sys2Proof.Machine

/-- A ready block runs the instruction that an unreserved request word carries, whatever its unread fields
hold (R68). -/
theorem step_of_carries {s : State} {w : Req} {q : List HostEvent} {i : Instr} (hs : Ready s)
    (hq : s.hostQueue = .request w :: q) (hrsv : w.getLsbD 48 = false) (hw : Carries w i) :
    step s = exec i { s with hostQueue := q } :=
  step_issue (p := .request w) hs hq ((decodeRequest_eq_ok_iff w i).mpr ⟨hrsv, hw⟩)

theorem exec_crcInit (s : State) :
    exec .crcInit s = .next { s with crcAcc := 0xFF#8, result := 0x00FF#16, err := 0x00#8 } :=
  exec_eq .crcInit s

theorem exec_crcFeed (s : State) (d0 : Byte) :
    exec (.crcFeed d0) s = .next { s with
      crcAcc := crcByte s.crcAcc d0, result := 0x00#8 ++ crcByte s.crcAcc d0, err := 0x00#8 } := by
  rw [← setWidth_byte_eq]
  exact exec_eq (.crcFeed d0) s

theorem exec_crcWord (s : State) (d0 d1 : Byte) :
    exec (.crcWord d0 d1) s = .next { s with result := 0x00#8 ++ crc8 [d0, d1], err := 0x00#8 } := by
  rw [← setWidth_byte_eq]
  exact exec_eq (.crcWord d0 d1) s

theorem exec_crcCheck (s : State) (d0 d1 d2 : Byte) :
    exec (.crcCheck d0 d1 d2) s = .next { s with
      result := 0#7 ++ BitVec.ofBool (decide (crc8 [d0, d1] = d2)) ++ crc8 [d0, d1], err := 0x00#8 } := by
  rw [← checkResult_eq]
  exact exec_eq (.crcCheck d0 d1 d2) s

/-- Settles O13. -/
theorem crcInitStartsAStream : Obligations.CrcInitStartsAStream :=
  ⟨exec_crcInit, fun _ _ _ hs hq hop hrsv =>
    (step_of_carries (i := .crcInit) hs hq hrsv hop).trans (exec_crcInit _)⟩

/-- CRC_INIT and feeds leave the checksum of the fed bytes (R105). -/
theorem execAll_crcInit_crcFeed (s : State) (bytes : List Byte) :
    execAll (.crcInit :: bytes.map .crcFeed) s = .next (streamState (crc8 bytes) s) := by
  rw [execAll_cons, stateAfter_crcInit]
  exact execAll_crcFeed bytes crcInitial s

/-- Settles O14: the operation, its request words, then the stream. -/
theorem crcFeedFoldsOneByte : Obligations.CrcFeedFoldsOneByte :=
  ⟨exec_crcFeed, fun _ w _ hs hq hop hrsv =>
    (step_of_carries (i := .crcFeed (w.extractLsb 47 40)) hs hq hrsv ⟨hop, rfl⟩).trans (exec_crcFeed _ _),
    execAll_crcInit_crcFeed⟩

/-- Settles O15. -/
theorem crcWordAnswersTheChecksum : Obligations.CrcWordAnswersTheChecksum :=
  ⟨exec_crcWord, fun _ w _ hs hq hop hrsv =>
    (step_of_carries (i := .crcWord (w.extractLsb 47 40) (w.extractLsb 39 32)) hs hq hrsv ⟨hop, rfl, rfl⟩).trans
      (exec_crcWord _ _ _)⟩

/-- Settles O16. -/
theorem crcCheckAnswersTheMatchBit : Obligations.CrcCheckAnswersTheMatchBit :=
  ⟨exec_crcCheck, fun _ w _ hs hq hop hrsv =>
    (step_of_carries (i := .crcCheck (w.extractLsb 47 40) (w.extractLsb 39 32) (w.extractLsb 31 24)) hs hq hrsv
      ⟨hop, rfl, rfl, rfl⟩).trans (exec_crcCheck _ _ _ _)⟩

/-- The match bit is RESULT[8] (R107). -/
theorem getLsbD_checkResult_eight (m : Bool) (c : Byte) : (checkResult m c).getLsbD 8 = m := by
  simp only [checkResult_eq, BitVec.getLsbD_append]
  simp

/-- A validating access reports CODE 0 exactly when the group verifies (R28, R125 to R127). -/
theorem accessErr_code_eq_zero_iff (g : Group) (field : ErrField) :
    (accessErr g field).extractLsb 1 0 = 0#2 ↔ g.valid = true := by
  unfold accessErr
  cases g.valid <;> cases field <;> decide

/-- Settles O38: both sides are the predicate `crcOk` of the three bytes. -/
theorem statusGetSucceedsWhenCheckMatches : Obligations.StatusGetSucceedsWhenCheckMatches := by
  intro s t u d0 d1 d2 hcheck hstatus
  obtain rfl := eq_stateAfter_of_exec hcheck
  obtain rfl := eq_stateAfter_of_exec hstatus
  have hmatch : (stateAfter (.crcCheck d0 d1 d2) s).result.getLsbD 8 = crcOk d0 d1 d2 := getLsbD_checkResult_eight _ _
  have hcode := accessErr_code_eq_zero_iff ⟨d0, d1, d2⟩ .status
  rw [hmatch]
  exact hcode.symm

end Sys2Proof.Machine
end

section
/-! Rounded division and the two conversions (41_convert.md R120 to R123, R128 to R132): both are one scale of the raw
number, the temperature lowered by 4500. -/

namespace Sys2Proof.Machine

/-- Settles O22. -/
theorem rawWordIsBigEndian : Obligations.RawWordIsBigEndian := fun msb lsb => by
  rw [rawWord_eq_append, BitVec.toNat_append, ← Nat.shiftLeft_add_eq_or_of_lt lsb.isLt, Nat.shiftLeft_eq]

theorem roundNearest_eq_iff {n d q : Int} (hd : 0 < d) :
    roundNearest n d = q ↔ 2 * d * q - d ≤ 2 * n ∧ 2 * n < 2 * d * q + d := by
  have hdiv : roundNearest n d = q ↔ q * (2 * d) ≤ 2 * n + d ∧ 2 * n + d < q * (2 * d) + 2 * d :=
    Int.ediv_eq_iff_of_pos (by omega)
  rw [hdiv, mul_comm q]
  omega

theorem roundNearest_bounds (n : Int) {d : Int} (hd : 0 < d) :
    2 * d * roundNearest n d - d ≤ 2 * n ∧ 2 * n < 2 * d * roundNearest n d + d :=
  (roundNearest_eq_iff hd).mp rfl

/-- Settles O23: the floor's half-open interval, moved down by half a unit. -/
theorem roundNearestIsTheNearestInteger : Obligations.RoundNearestIsTheNearestInteger :=
  fun _ _ _ hd => roundNearest_eq_iff hd

theorem roundNearest_mono {m n d : Int} (hd : 0 < d) (hmn : m ≤ n) : roundNearest m d ≤ roundNearest n d :=
  Int.ediv_le_ediv (by omega) (by omega)

/-- A whole multiple of the divisor passes through the rounding. -/
theorem roundNearest_add_mul (n k : Int) {d : Int} (hd : 0 < d) : roundNearest (n + d * k) d = roundNearest n d + k := by
  obtain ⟨hlow, hhigh⟩ := roundNearest_bounds n hd
  rw [roundNearest_eq_iff hd]
  constructor <;> linarith

theorem roundNearest_mul_self (k : Int) {d : Int} (hd : 0 < d) : roundNearest (d * k) d = k := by
  rw [roundNearest_eq_iff hd, mul_assoc]
  constructor <;> linarith

/-- Scaling up from `c` to `d` steps and rounding is undone by scaling down: the first rounding is off by at most
`c / 2`, less than the half unit `d / 2` that the second one forgives. -/
theorem roundNearest_mul_roundNearest {c d : Int} (hc : 0 < c) (hcd : c < d) (u : Int) :
    roundNearest (c * roundNearest (d * u) c) d = u := by
  obtain ⟨hlow, hhigh⟩ := roundNearest_bounds (d * u) hc
  rw [roundNearest_eq_iff (hc.trans hcd)]
  constructor <;> linarith

/-- Where no tie arises, an integer within half a unit of the quotient, ends included, is the result. -/
theorem eq_roundNearest_of_abs_le {n d q : Int} (hd : 0 < d) (htie : 2 * n ≠ d * (2 * q + 1))
    (hq : |2 * n - 2 * d * q| ≤ d) : q = roundNearest n d := by
  obtain ⟨hlow, hhigh⟩ := abs_le.mp hq
  have hupper : 2 * n < 2 * d * q + d := lt_of_le_of_ne (by linarith) fun h => htie (h.trans (by ring))
  exact ((roundNearest_eq_iff hd).mpr ⟨by linarith, hupper⟩).symm

/-- The raw number scaled from 0..65535 to 0..c and rounded. -/
def scaleRaw (c : Int) (raw : Half) : Int := roundNearest (c * (raw.toNat : Int)) 65535

theorem tempCenti_eq_roundNearest (raw : Half) :
    tempCenti raw = roundNearest (17500 * (raw.toNat : Int) - 294907500) 65535 := by
  rw [tempCenti]
  congr 1
  ring

theorem humCenti_eq_scaleRaw (raw : Half) : humCenti raw = scaleRaw 10000 raw := by
  rw [humCenti, scaleRaw]
  congr 1
  ring

/-- The offset of 45 degrees is a whole number of hundredths, so it stays outside the rounding. -/
theorem tempCenti_eq_scaleRaw (raw : Half) : tempCenti raw = scaleRaw 17500 raw - 4500 := by
  rw [tempCenti_eq_roundNearest]
  exact roundNearest_add_mul (17500 * (raw.toNat : Int)) (-4500) (by decide : (0 : Int) < 65535)

/-- Settles O24. -/
theorem conversionsFollowTheirFormulas : Obligations.ConversionsFollowTheirFormulas :=
  fun raw => ⟨tempCenti_eq_roundNearest raw, humCenti_eq_scaleRaw raw⟩

theorem scaleRaw_mono {c : Int} (hc : 0 ≤ c) {raw raw' : Half} (h : raw.toNat ≤ raw'.toNat) :
    scaleRaw c raw ≤ scaleRaw c raw' :=
  roundNearest_mono (by decide) (mul_le_mul_of_nonneg_left (Int.ofNat_le.mpr h) hc)

theorem scaleRaw_zero (c : Int) : scaleRaw c 0#16 = 0 := by
  rw [scaleRaw, show ((0#16).toNat : Int) = 0 from rfl, mul_zero]
  rfl

theorem scaleRaw_last (c : Int) : scaleRaw c 65535#16 = c := by
  rw [scaleRaw, show ((65535#16).toNat : Int) = 65535 from rfl, mul_comm]
  exact roundNearest_mul_self c (by decide)

theorem scaleRaw_mem_range {c : Int} (hc : 0 ≤ c) (raw : Half) : 0 ≤ scaleRaw c raw ∧ scaleRaw c raw ≤ c := by
  have hlow := scaleRaw_mono hc (raw := 0#16) (Nat.zero_le raw.toNat)
  have hhigh := scaleRaw_mono hc (raw' := 65535#16) (Nat.le_of_lt_succ raw.isLt)
  rw [scaleRaw_zero] at hlow
  rw [scaleRaw_last] at hhigh
  exact ⟨hlow, hhigh⟩

theorem tempCenti_mem_range (raw : Half) : -4500 ≤ tempCenti raw ∧ tempCenti raw ≤ 13000 := by
  obtain ⟨hlow, hhigh⟩ := scaleRaw_mem_range (c := 17500) (by decide) raw
  rw [tempCenti_eq_scaleRaw]
  exact ⟨by omega, by omega⟩

theorem humCenti_mem_range (raw : Half) : 0 ≤ humCenti raw ∧ humCenti raw ≤ 10000 := by
  rw [humCenti_eq_scaleRaw]
  exact scaleRaw_mem_range (by decide) raw

/-- `trunc_16` keeps a number of the s16 range (R12, R128). -/
theorem toInt_ofInt_of_fits {v : Int} (hlow : -32768 ≤ v) (hhigh : v ≤ 32767) : (BitVec.ofInt 16 v).toInt = v :=
  BitVec.toInt_ofInt_eq_self (by decide) hlow (Int.lt_add_one_of_le hhigh)

/-- `trunc_16` keeps a number of the u16 range (R12, R128). -/
theorem toNat_ofInt_of_fits {v : Int} (hlow : 0 ≤ v) (hhigh : v ≤ 65535) : ((BitVec.ofInt 16 v).toNat : Int) = v := by
  rw [BitVec.toNat_ofInt]
  omega

/-- Settles O25: the ranges, then the ends of the scale. -/
theorem conversionsFitSixteenBits : Obligations.ConversionsFitSixteenBits := by
  refine ⟨fun raw => ?fits, ?temp0, ?temp65535, ?hum0, ?hum65535⟩
  case fits =>
    obtain ⟨htlow, hthigh⟩ := tempCenti_mem_range raw
    obtain ⟨hhlow, hhhigh⟩ := humCenti_mem_range raw
    exact ⟨htlow, hthigh, hhlow, hhhigh, toInt_ofInt_of_fits (by omega) (by omega),
      toNat_ofInt_of_fits hhlow (by omega)⟩
  case temp0 => rw [tempCenti_eq_scaleRaw, scaleRaw_zero]; rfl
  case temp65535 => rw [tempCenti_eq_scaleRaw, scaleRaw_last]; rfl
  case hum0 => rw [humCenti_eq_scaleRaw, scaleRaw_zero]
  case hum65535 => rw [humCenti_eq_scaleRaw, scaleRaw_last]

/-- A scale of fewer than 65535 steps reaches each of its values, at the raw number nearest to it. -/
theorem exists_scaleRaw_eq {c v : Int} (hc : 0 < c) (hc' : c < 65535) (hlow : 0 ≤ v) (hhigh : v ≤ c) :
    ∃ raw, scaleRaw c raw = v := by
  have hzero : 0 ≤ roundNearest (65535 * v) c := by
    calc 0 = roundNearest (c * 0) c := (roundNearest_mul_self 0 hc).symm
      _ ≤ roundNearest (65535 * v) c := roundNearest_mono hc (by omega)
  have hlast : roundNearest (65535 * v) c ≤ 65535 := by
    calc roundNearest (65535 * v) c ≤ roundNearest (c * 65535) c := roundNearest_mono hc (by omega)
      _ = 65535 := roundNearest_mul_self 65535 hc
  refine ⟨BitVec.ofInt 16 (roundNearest (65535 * v) c), ?_⟩
  rw [scaleRaw, toNat_ofInt_of_fits hzero hlast]
  exact roundNearest_mul_roundNearest hc hc' v

/-- Settles O26: the scale is non-decreasing and onto, and the temperature is a scale lowered by 4500. -/
theorem conversionsAreMonotoneOntoTheirRanges : Obligations.ConversionsAreMonotoneOntoTheirRanges := by
  simp only [Obligations.ConversionsAreMonotoneOntoTheirRanges, tempCenti_eq_scaleRaw, humCenti_eq_scaleRaw]
  refine ⟨fun raw raw' h => ⟨?tempMono, ?humMono⟩, fun v hlow hhigh => ?tempOnto, fun v hlow hhigh => ?humOnto⟩
  case tempMono => exact Int.sub_le_sub_right (scaleRaw_mono (by decide) h.le) _
  case humMono => exact scaleRaw_mono (by decide) h.le
  case tempOnto =>
    obtain ⟨raw, hraw⟩ := exists_scaleRaw_eq (c := 17500) (v := v + 4500) (by decide) (by decide) (by omega) (by omega)
    exact ⟨raw, by omega⟩
  case humOnto => exact exists_scaleRaw_eq (by decide) (by decide) hlow hhigh

/-- A tie would be an even number equal to an odd one (R130). -/
theorem not_tie (n k : Int) : 2 * n ≠ 65535 * (2 * k + 1) := by omega

/-- Settles O27: the divisor is odd. -/
theorem noConversionIsATie : Obligations.NoConversionIsATie := by
  have hhum (raw : Half) : 20000 * (raw.toNat : Int) = 2 * (10000 * (raw.toNat : Int)) := by ring
  refine ⟨fun raw k => ⟨not_tie _ k, ?humNoTie⟩, fun raw q hq => ?tempNearest, fun raw q hq => ?humNearest⟩
  case humNoTie => rw [hhum]; exact not_tie _ k
  case tempNearest =>
    rw [tempCenti_eq_roundNearest]
    exact eq_roundNearest_of_abs_le (by decide) (not_tie _ q) hq
  case humNearest =>
    rw [hhum] at hq
    rw [humCenti_eq_scaleRaw]
    exact eq_roundNearest_of_abs_le (by decide) (not_tie _ q) hq

/-- The datapath of R132: a numerator `n` in 32-bit two's complement, whose doubling and rounding term stay in 32 bits,
divided once by 131070. -/
theorem datapath_eq_roundNearest {x : BitVec 32} {n : Int} (hx : x = BitVec.ofInt 32 n)
    (hlow : -2147483648 ≤ 2 * n + 65535) (hhigh : 2 * n + 65535 < 2147483648) :
    (2#32 * x + 65535#32).toInt / 131070 = roundNearest n 65535 := by
  have hsum : 2#32 * x + 65535#32 = BitVec.ofInt 32 (2 * n + 65535) := by
    rw [hx, BitVec.ofInt_add, BitVec.ofInt_mul]
    rfl
  rw [hsum, BitVec.toInt_ofInt_eq_self (by decide) hlow hhigh]
  rfl

/-- The raw number in 32 bits is the number itself. -/
theorem setWidth_raw_eq_ofInt (raw : Half) : raw.setWidth 32 = BitVec.ofInt 32 (raw.toNat : Int) := by
  rw [BitVec.ofInt_natCast, BitVec.ofNat_toNat]

/-- Settles O28: the bounds follow from those of the raw number, and with them each numerator passes the datapath. -/
theorem thirtyTwoBitsComputeTheConversions : Obligations.ThirtyTwoBitsComputeTheConversions := by
  intro raw
  have hraw : raw.toNat < 65536 := raw.isLt
  refine ⟨⟨by omega, by omega⟩, ⟨by omega, by omega⟩, by omega, ?temp, ?hum⟩
  case temp =>
    have hnum : 17500#32 * raw.setWidth 32 - 294907500#32 = BitVec.ofInt 32 (17500 * (raw.toNat : Int) - 294907500) := by
      rw [setWidth_raw_eq_ofInt, sub_eq_add_neg (17500 * _), BitVec.ofInt_add, BitVec.ofInt_mul, BitVec.sub_eq_add_neg]
      rfl
    rw [tempCenti_eq_roundNearest, datapath_eq_roundNearest hnum (by omega) (by omega)]
  case hum =>
    have hnum : 10000#32 * raw.setWidth 32 = BitVec.ofInt 32 (10000 * (raw.toNat : Int)) := by
      rw [setWidth_raw_eq_ofInt, BitVec.ofInt_mul]
      rfl
    rw [humCenti_eq_scaleRaw, datapath_eq_roundNearest hnum (by omega) (by omega)]
    rfl

end Sys2Proof.Machine
end

section
/-! The measurement buffer and the validating accessors (41_convert.md R124 to R127, R134): each as an instruction, and
as the step of every request word that carries it. -/

namespace Sys2Proof.Machine

theorem exec_measLoad_six (s : State) (d0 d1 d2 d3 d4 d5 : Byte) :
    exec (.measLoad 6 d0 d1 d2 d3 d4 d5) s = .next { s with meas := ⟨d0, d1, d2, d3, d4, d5⟩, err := 0x00#8 } :=
  exec_eq (.measLoad 6 d0 d1 d2 d3 d4 d5) s

theorem exec_measLoad_of_ne {len : Nat} (hlen : len ≠ 6) (s : State) (d0 d1 d2 d3 d4 d5 : Byte) :
    exec (.measLoad len d0 d1 d2 d3 d4 d5) s = .next { s with err := 0x02#8 } := by
  rw [← errWord_busRead]
  exact if_neg hlen

/-- A word's count is 6 exactly when its three bits are. -/
theorem exec_measLoad_toNat (len : BitVec 3) (s : State) (d0 d1 d2 d3 d4 d5 : Byte) :
    exec (.measLoad len.toNat d0 d1 d2 d3 d4 d5) s =
      if len = 6#3 then .next { s with meas := ⟨d0, d1, d2, d3, d4, d5⟩, err := 0x00#8 }
      else .next { s with err := 0x02#8 } := by
  split
  · next hlen =>
    rw [hlen]
    exact exec_measLoad_six s d0 d1 d2 d3 d4 d5
  · next hlen => exact exec_measLoad_of_ne (fun h => hlen (BitVec.eq_of_toNat_eq h)) s d0 d1 d2 d3 d4 d5

/-- Settles O17. -/
theorem measLoadStoresSixBytesOrNone : Obligations.MeasLoadStoresSixBytesOrNone :=
  ⟨exec_measLoad_six, fun s _ d0 d1 d2 d3 d4 d5 _ hlen => exec_measLoad_of_ne hlen s d0 d1 d2 d3 d4 d5,
    fun _ w _ hs hq hop hrsv =>
      (step_of_carries (i := .measLoad (w.extractLsb 51 49).toNat (w.extractLsb 47 40) (w.extractLsb 39 32)
        (w.extractLsb 31 24) (w.extractLsb 23 16) (w.extractLsb 15 8) (w.extractLsb 7 0)) hs hq hrsv
        ⟨hop, rfl, rfl, rfl, rfl, rfl, rfl, rfl⟩).trans (exec_measLoad_toNat (w.extractLsb 51 49) _ _ _ _ _ _ _)⟩

theorem accessGroup_of_match (g : Group) (h : crc8 [g.msb, g.lsb] = g.crc) (field : ErrField)
    (convert : Half → Half) (s : State) :
    accessGroup g field convert s = .next { s with result := convert (g.msb ++ g.lsb), err := 0x00#8 } := by
  rw [accessGroup_of_valid ((group_valid_iff g).mpr h), Group.raw, rawWord_eq_append]

theorem accessGroup_of_mismatch (g : Group) (h : crc8 [g.msb, g.lsb] ≠ g.crc) (field : ErrField)
    (convert : Half → Half) (s : State) :
    accessGroup g field convert s = .next { s with err := errWord .checksumMismatch field } :=
  accessGroup_of_invalid ((group_valid_eq_false_iff g).mpr h) field convert s

theorem exec_tempGet (s : State) :
    exec .tempGet s = accessGroup (tempGroup s.meas) .temperature (fun raw => toResult (tempCenti raw)) s := rfl

theorem exec_humGet (s : State) :
    exec .humGet s = accessGroup (humGroup s.meas) .humidity (fun raw => toResult (humCenti raw)) s := rfl

theorem exec_statusGet_three (s : State) (d0 d1 d2 : Byte) :
    exec (.statusGet 3 d0 d1 d2) s = accessGroup ⟨d0, d1, d2⟩ .status (fun raw => raw) s := rfl

theorem exec_statusGet_of_ne {len : Nat} (hlen : len ≠ 3) (s : State) (d0 d1 d2 : Byte) :
    exec (.statusGet len d0 d1 d2) s = .next { s with err := 0x02#8 } := by
  rw [← errWord_busRead]
  exact if_neg hlen

/-- Settles O18. -/
theorem tempGetValidatesThenConverts : Obligations.TempGetValidatesThenConverts := by
  refine ⟨fun s h => ?valid, fun s h => ?mismatch, fun s w q hs hq hop hrsv => ?word⟩
  case valid => exact (exec_tempGet s).trans (accessGroup_of_match (tempGroup s.meas) h _ _ s)
  case mismatch =>
    rw [← errWord_temperature]
    exact (exec_tempGet s).trans (accessGroup_of_mismatch (tempGroup s.meas) h _ _ s)
  case word => exact step_of_carries (i := .tempGet) hs hq hrsv hop

/-- Settles O19. -/
theorem humGetValidatesThenConverts : Obligations.HumGetValidatesThenConverts := by
  refine ⟨fun s h => ?valid, fun s h => ?mismatch, fun s w q hs hq hop hrsv => ?word⟩
  case valid => exact (exec_humGet s).trans (accessGroup_of_match (humGroup s.meas) h _ _ s)
  case mismatch =>
    rw [← errWord_humidity]
    exact (exec_humGet s).trans (accessGroup_of_mismatch (humGroup s.meas) h _ _ s)
  case word => exact step_of_carries (i := .humGet) hs hq hrsv hop

/-- Settles O20: the count is asked before the checksum. -/
theorem statusGetValidatesAndReturnsTheWord : Obligations.StatusGetValidatesAndReturnsTheWord := by
  refine ⟨fun s d0 d1 d2 h => ?valid, fun s d0 d1 d2 h => ?mismatch, fun s len d0 d1 d2 _ hlen => ?wrongCount,
    fun s w q hs hq hop hrsv => ?word⟩
  case valid => exact (exec_statusGet_three s d0 d1 d2).trans (accessGroup_of_match ⟨d0, d1, d2⟩ h _ _ s)
  case mismatch =>
    rw [← errWord_status]
    exact (exec_statusGet_three s d0 d1 d2).trans (accessGroup_of_mismatch ⟨d0, d1, d2⟩ h _ _ s)
  case wrongCount => exact exec_statusGet_of_ne hlen s d0 d1 d2
  case word =>
    exact step_of_carries (i := .statusGet (w.extractLsb 51 49).toNat (w.extractLsb 47 40) (w.extractLsb 39 32)
      (w.extractLsb 31 24)) hs hq hrsv ⟨hop, rfl, rfl, rfl, rfl⟩

/-- The outcome of an access is a function of the group and the old RESULT, not of the rest of MEAS. -/
theorem accessGroup_meas_irrelevant (g : Group) (field : ErrField) (convert : Half → Half) (s : State) (m : Meas) :
    ∃ t u, accessGroup g field convert s = .next t ∧ accessGroup g field convert { s with meas := m } = .next u ∧
      u.result = t.result ∧ u.err = t.err :=
  ⟨_, _, accessGroup_eq g field convert s, accessGroup_eq g field convert _, rfl, rfl⟩

/-- Settles O37: the changed bytes are not in the group that the accessor reads. -/
theorem accessorsAreIndependent : Obligations.AccessorsAreIndependent := by
  refine ⟨fun s b3 b4 b5 => ?temp, fun s b0 b1 b2 => ?hum⟩
  case temp =>
    simp only [exec_tempGet]
    exact accessGroup_meas_irrelevant (tempGroup s.meas) _ _ s _
  case hum =>
    simp only [exec_humGet]
    exact accessGroup_meas_irrelevant (humGroup s.meas) _ _ s _

end Sys2Proof.Machine
end

section
/-! The outcomes of a request (60_exceptions.md R155, R156, R159): ERR after a request word, and what a failing one
leaves unchanged. -/

namespace Sys2Proof.Machine

/-- A validating access that reports an error leaves RESULT alone (R159). -/
theorem accessResult_of_failed {g : Group} {field : ErrField} (h : (accessErr g field).extractLsb 1 0 ≠ 0#2)
    (convert : Half → Half) (r : Half) : accessResult g convert r = r :=
  if_neg fun hvalid => h ((accessErr_code_eq_zero_iff g field).mpr hvalid)

/-- An instruction that leaves an error in ERR writes ERR alone (R159); one without an error row in R155 either reports
success or, as a sensor command, writes nothing. -/
theorem stateAfter_of_failed {i : Instr} {s : State} (h : (stateAfter i s).err.extractLsb 1 0 ≠ 0#2) :
    stateAfter i s = { s with err := (stateAfter i s).err } := by
  cases i with
  | crcInit | crcFeed | crcWord | crcCheck => exact absurd rfl h
  | measLoad len =>
    by_cases hlen : len = measBytes
    · subst hlen
      exact absurd rfl h
    · simp only [stateAfter, crcAccAfter, measAfter, resultAfter, if_neg hlen]
  | tempGet | humGet => simp only [stateAfter, crcAccAfter, measAfter, resultAfter, accessResult_of_failed h]
  | statusGet len =>
    by_cases hlen : len = statusBytes
    · subst hlen
      simp only [stateAfter, crcAccAfter, measAfter, resultAfter, if_true, accessResult_of_failed h]
    · simp only [stateAfter, crcAccAfter, measAfter, resultAfter, if_neg hlen]
  | sensorReset | sensorReadStatus | sensorClearStatus | sensorMeasure | sensorHeaterOn | sensorHeaterOff => rfl

/-- Settles O32: a request word is an instruction, or ILLEGAL_OP, which writes ERR alone by definition. -/
theorem aFailedRequestWritesErrAlone : Obligations.AFailedRequestWritesErrAlone := by
  intro s t w q hs hq hstep hfailed
  have hrun := (step_request_of_ready hs hq).symm.trans hstep
  obtain ⟨i, -, hi⟩ | herr := runRequest_cases w
  · cases (hi _).symm.trans hrun
    exact stateAfter_of_failed hfailed
  · cases (herr _).symm.trans hrun
    rfl

theorem accessErr_temperature (g : Group) :
    accessErr g .temperature = if crcOk g.msb g.lsb g.crc then 0x00#8 else 0x09#8 := by
  rw [← errWord_temperature]; rfl

theorem accessErr_humidity (g : Group) :
    accessErr g .humidity = if crcOk g.msb g.lsb g.crc then 0x00#8 else 0x0D#8 := by
  rw [← errWord_humidity]; rfl

theorem accessErr_status (g : Group) :
    accessErr g .status = if crcOk g.msb g.lsb g.crc then 0x00#8 else 0x05#8 := by
  rw [← errWord_status]; rfl

/-- Settles O33: `errAfter` is R155's table, row by row. -/
theorem outcomesFollowTheTable : Obligations.OutcomesFollowTheTable := by
  intro s t w q hs hq hstep
  have hrun := (step_request_of_ready hs hq).symm.trans hstep
  cases hdecode : decodeRequest w with
  | error e =>
    cases (runRequest_of_error hdecode _).symm.trans hrun
    rfl
  | ok i =>
    obtain rfl := eq_stateAfter_of_exec ((runRequest_of_ok hdecode _).symm.trans hrun)
    cases i with
    | crcInit | crcFeed | crcWord | crcCheck | measLoad => rfl
    | tempGet => exact accessErr_temperature (tempGroup s.meas)
    | humGet => exact accessErr_humidity (humGroup s.meas)
    | statusGet len d0 d1 d2 => exact (if_congr Iff.rfl (accessErr_status ⟨d0, d1, d2⟩) rfl).trans (ite_not ..).symm
    | sensorReset | sensorReadStatus | sensorClearStatus | sensorMeasure | sensorHeaterOn | sensorHeaterOff =>
      exact absurd (isSensorCommand_of_decodeRequest hdecode) (by decide)

/-- Settles O34: the decoder asks the reserved bit first, and STATUS_GET its count before its bytes. -/
theorem errorsAreReportedByPriority : Obligations.ErrorsAreReportedByPriority := by
  refine ⟨fun s w q hs hq hrsv => ?illegalOp, fun s w q hs hq hrsv hop hlen => ?busRead⟩
  case illegalOp => exact reservedRequestsReportIllegalOp s w q hs hq (.inl hrsv)
  case busRead =>
    have hcount : (w.extractLsb 51 49).toNat ≠ 3 := fun h => hlen (BitVec.eq_of_toNat_eq h)
    have hcarries : Carries w (.statusGet (w.extractLsb 51 49).toNat (reqLane w 0) (reqLane w 1) (reqLane w 2)) :=
      ⟨hop, rfl, rfl, rfl, rfl⟩
    exact (step_of_carries hs hq hrsv hcarries).trans (exec_statusGet_of_ne hcount _ _ _ _)

end Sys2Proof.Machine
end

section
/-! The two host protocol violations (60_exceptions.md R158): which steps stop on them, and that a run that reaches one
stays at it. -/

namespace Sys2Proof.Machine

/-- A request word completes and leaves the port alone. -/
theorem runRequest_keeps_port (w : Req) (s : State) : ∃ t, runRequest w s = .next t ∧
    t.wasReset = s.wasReset ∧ t.inFlight = s.inFlight ∧ t.hostQueue = s.hostQueue := by
  obtain ⟨i, -, hrun⟩ | hrun := runRequest_cases w
  · exact ⟨_, hrun s, rfl, rfl, rfl⟩
  · exact ⟨_, hrun s, rfl, rfl, rfl⟩

theorem cyclesLeft_of_idle {s : State} (h : s.inFlight = none) : s.cyclesLeft = 0 := by
  simp only [State.cyclesLeft, h]

theorem cyclesLeft_of_inFlight {s : State} {f : InFlight} (h : s.inFlight = some f) : s.cyclesLeft = f.cyclesLeft := by
  simp only [State.cyclesLeft, h]

/-- A clock cycle stops in no state, and takes one from the cycles to completion (10_state.md R31). -/
theorem clockCycle_counts_down (s : State) : ∃ t, clockCycle s = .next t ∧
    t.wasReset = s.wasReset ∧ t.cyclesLeft = s.cyclesLeft - 1 ∧ t.hostQueue = s.hostQueue := by
  cases hf : s.inFlight with
  | none => exact ⟨s, clockCycle_of_idle hf, rfl, by rw [cyclesLeft_of_idle hf], rfl⟩
  | some f =>
    rw [cyclesLeft_of_inFlight hf]
    by_cases hleft : f.cyclesLeft ≤ 1
    · obtain ⟨t, hrun, hreset, hflight, hqueue⟩ := runRequest_keeps_port f.req { s with busy := false, inFlight := none }
      refine ⟨t, (clockCycle_of_last hf hleft).trans hrun, hreset, ?_, hqueue⟩
      rw [cyclesLeft_of_idle hflight]
      omega
    · exact ⟨_, clockCycle_of_waiting hf hleft, rfl, rfl, rfl⟩

/-- An action of the host runs, or it is a request, of either form, that the port forbids. -/
theorem serve_cases (e : HostEvent) (s : State) :
    (∃ t, serve e s = .next t) ∨
      ∃ w f, (e = .request w ∨ e = .present w) ∧ requestFault s = some f ∧ serve e s = .fault f := by
  cases e with
  | rst => exact .inl ⟨_, rfl⟩
  | request w =>
    cases hf : requestFault s with
    | some f => exact .inr ⟨w, f, .inl rfl, rfl, serve_request_of_fault hf w⟩
    | none =>
      obtain ⟨t, hrun, -⟩ := runRequest_completes w s
      exact .inl ⟨t, (serve_request_of_admitted hf w).trans hrun⟩
  | present w =>
    cases hf : requestFault s with
    | some f => exact .inr ⟨w, f, .inr rfl, rfl, serve_present_of_fault hf w⟩
    | none => exact .inl ⟨_, serve_present_of_admitted hf w⟩
  | clock =>
    obtain ⟨t, hcycle, -⟩ := clockCycle_counts_down s
    exact .inl ⟨t, hcycle⟩
  | sendCommand w => exact .inl ⟨s, serve_sendCommand w s⟩

/-- A step answers a next state, or it is at a request that the port forbids. -/
theorem step_cases (s : State) :
    (∃ t, step s = .next t) ∨
      ∃ w q f, (s.hostQueue = .request w :: q ∨ s.hostQueue = .present w :: q) ∧ requestFault s = some f ∧
        step s = .fault f := by
  cases hq : s.hostQueue with
  | nil =>
    obtain ⟨t, hcycle, -⟩ := clockCycle_counts_down s
    exact .inl ⟨t, (step_of_empty hq).trans hcycle⟩
  | cons e q =>
    rw [step_of_cons hq]
    obtain hnext | ⟨w, f, he, hf, hserve⟩ := serve_cases e { s with hostQueue := q }
    · exact .inl hnext
    · exact .inr ⟨w, q, f, he.imp (congrArg (· :: q)) (congrArg (· :: q)), hf, hserve⟩

/-- A forbidden request stops the step, whichever of its two forms the host chose. -/
theorem step_of_fault {s : State} {e : HostEvent} {w : Req} {q : List HostEvent} {f : Fault}
    (hq : s.hostQueue = e :: q) (he : e = .request w ∨ e = .present w) (hf : requestFault s = some f) :
    step s = .fault f := by
  have hf' : requestFault { s with hostQueue := q } = some f := hf
  rw [step_of_cons hq]
  obtain rfl | rfl := he
  · exact serve_request_of_fault hf' w
  · exact serve_present_of_fault hf' w

/-- A step stops exactly at a request that the port forbids, with the port's fault. -/
theorem step_eq_fault_iff (s : State) (f : Fault) :
    step s = .fault f ↔
      ∃ w q, (s.hostQueue = .request w :: q ∨ s.hostQueue = .present w :: q) ∧ requestFault s = some f := by
  constructor
  case mp =>
    intro hstep
    obtain ⟨t, hnext⟩ | ⟨w, q, g, hq, hg, hfault⟩ := step_cases s
    · cases hnext.symm.trans hstep
    · cases hfault.symm.trans hstep
      exact ⟨w, q, hq, hg⟩
  case mpr =>
    rintro ⟨w, q, hq | hq, hf⟩
    · exact step_of_fault hq (.inl rfl) hf
    · exact step_of_fault hq (.inr rfl) hf

theorem step_ne_refused (s : State) (r : Refusal) : step s ≠ .refused r := by
  intro hstep
  obtain ⟨t, hnext⟩ | ⟨w, q, f, -, -, hfault⟩ := step_cases s
  · cases hnext.symm.trans hstep
  · cases hfault.symm.trans hstep

/-- Settles O43: the port's two faults, then no refusal. -/
theorem onlyProtocolViolationsStop : Obligations.OnlyProtocolViolationsStop := by
  refine ⟨fun s => ?notReset, fun s => ?hostOverlap, step_ne_refused⟩
  case notReset => simp only [step_eq_fault_iff, requestFault_eq_notReset_iff]
  case hostOverlap => simp only [step_eq_fault_iff, requestFault_eq_hostOverlap_iff]

/-- A run that meets a forbidden request after `m` steps is at the fault after any number of further steps (R158). -/
theorem run_of_fault_after {s t : State} {m : Nat} {e : HostEvent} {w : Req} {q : List HostEvent} {f : Fault}
    (hrun : run m s = .next t) (hq : t.hostQueue = e :: q) (he : e = .request w ∨ e = .present w)
    (hf : requestFault t = some f) (n : Nat) : run (m + 1 + n) s = .fault f := by
  rw [Nat.add_assoc, run_add_of_next (1 + n) hrun, Nat.add_comm]
  exact run_succ_of_fault (step_of_fault hq he hf)

/-- A step runs the host's action and leaves the queue `q`, the reset mark and the cycles to completion: what
`keepsProtocol` asks of the next action. -/
def StepLeaves (s : State) (q : List HostEvent) (wasReset : Bool) (left : Nat) : Prop :=
  ∃ t, step s = .next t ∧ t.hostQueue = q ∧ t.wasReset = wasReset ∧ t.cyclesLeft = left

theorem step_rst_leaves {s : State} {q : List HostEvent} (hq : s.hostQueue = .rst :: q) : StepLeaves s q true 0 :=
  ⟨_, step_of_cons hq, rfl, rfl, rfl⟩

theorem step_clock_leaves {s : State} {q : List HostEvent} (hq : s.hostQueue = .clock :: q) :
    StepLeaves s q s.wasReset (s.cyclesLeft - 1) := by
  obtain ⟨t, hcycle, hreset, hleft, hqueue⟩ := clockCycle_counts_down { s with hostQueue := q }
  exact ⟨t, (step_of_cons hq).trans hcycle, hqueue, hreset, hleft⟩

theorem step_sendCommand_leaves {s : State} {c : Half} {q : List HostEvent} (hq : s.hostQueue = .sendCommand c :: q) :
    StepLeaves s q s.wasReset s.cyclesLeft :=
  ⟨_, (step_of_cons hq).trans (serve_sendCommand c _), rfl, rfl, rfl⟩

theorem step_request_leaves {s : State} {w : Req} {q : List HostEvent} (hq : s.hostQueue = .request w :: q)
    (hf : requestFault s = none) : StepLeaves s q s.wasReset s.cyclesLeft := by
  obtain ⟨t, hrun, hreset, hflight, hqueue⟩ := runRequest_keeps_port w { s with hostQueue := q }
  have hserve := serve_request_of_admitted (s := { s with hostQueue := q }) hf w
  exact ⟨t, (step_of_cons hq).trans (hserve.trans hrun), hqueue, hreset, by simp only [State.cyclesLeft, hflight]⟩

theorem step_present_leaves {s : State} {w : Req} {q : List HostEvent} (hq : s.hostQueue = .present w :: q)
    (hf : requestFault s = none) : StepLeaves s q s.wasReset Config.opLatency :=
  have hserve := serve_present_of_admitted (s := { s with hostQueue := q }) hf w
  ⟨_, (step_of_cons hq).trans hserve, rfl, rfl, rfl⟩

/-- Waiting and sensor commands run through in every state, and are no reset. -/
theorem run_of_quiet {before q : List HostEvent} {s : State}
    (hquiet : ∀ a ∈ before, a = .clock ∨ ∃ c, a = .sendCommand c) (hq : s.hostQueue = before ++ q) :
    ∃ t, run before.length s = .next t ∧ t.hostQueue = q ∧ t.wasReset = s.wasReset := by
  induction before generalizing s with
  | nil => exact ⟨s, rfl, hq, rfl⟩
  | cons a before ih =>
    obtain ⟨ha, hrest⟩ := List.forall_mem_cons.mp hquiet
    have hstep : ∃ left, StepLeaves s (before ++ q) s.wasReset left := by
      obtain rfl | ⟨c, rfl⟩ := ha
      · exact ⟨_, step_clock_leaves hq⟩
      · exact ⟨_, step_sendCommand_leaves hq⟩
    obtain ⟨left, u, hu, huq, hureset, -⟩ := hstep
    obtain ⟨t, hrun, htq, htreset⟩ := ih hrest huq
    exact ⟨t, (run_succ_of_next hu).trans hrun, htq, htreset.trans hureset⟩

/-- `k` clock cycles of the host, short of completion, leave the request in flight and the block busy. -/
theorem run_clocks_of_waiting {s : State} {w : Req} {q : List HostEvent} (k : Nat) {n : Nat} (hn : 1 ≤ n)
    (hq : s.hostQueue = List.replicate k .clock ++ q) (hs : s.inFlight = some ⟨w, n + k⟩) :
    run k s = .next { s with hostQueue := q, inFlight := some ⟨w, n⟩ } := by
  induction k generalizing s with
  | zero =>
    have hqueue : q = s.hostQueue := hq.symm
    have hflight : some ⟨w, n⟩ = s.inFlight := hs.symm
    rw [run_zero, hqueue, hflight]
  | succ k ih =>
    have hwaiting : ¬ n + (k + 1) ≤ 1 := by omega
    have hcycle := (step_of_cons hq).trans (clockCycle_of_waiting hs hwaiting)
    exact (run_succ_of_next hcycle).trans (ih rfl rfl)

/-- An accepted request is still in flight, and the block busy, fewer than OP_LATENCY cycles later (R31). -/
theorem run_present_clocks {s : State} {w : Req} {k : Nat} {q : List HostEvent} (hs : Ready s)
    (hk : k < Config.opLatency) (hq : s.hostQueue = .present w :: (List.replicate k .clock ++ q)) :
    run (1 + k) s = .next { s with hostQueue := q, busy := true, inFlight := some ⟨w, Config.opLatency - k⟩ } := by
  have haccept := (run_one s).trans (step_present_of_ready hs hq)
  rw [run_add_of_next k haccept]
  exact run_clocks_of_waiting k (Nat.sub_pos_of_lt hk) rfl (by rw [Nat.sub_add_cancel hk.le]; rfl)

/-- Settles O44: the run up to the forbidden request, which then stops it for good. -/
theorem aViolationIsNotUndoneByOtherActions : Obligations.AViolationIsNotUndoneByOtherActions := by
  refine ⟨fun s before after e w n hreset hquiet he hq => ?notReset,
    fun s k after e w w' n hs hk he hq => ?hostOverlap⟩
  case notReset =>
    obtain ⟨t, hrun, htq, htreset⟩ := run_of_quiet hquiet hq
    have hf := (requestFault_eq_notReset_iff t).mpr (htreset.trans hreset)
    exact run_of_fault_after hrun htq he hf n
  case hostOverlap =>
    have hf := (requestFault_eq_hostOverlap_iff { s with
      hostQueue := e :: after, busy := true, inFlight := some ⟨w, Config.opLatency - k⟩ }).mpr ⟨hs.wasReset, rfl⟩
    exact run_of_fault_after (run_present_clocks hs hk hq) rfl he hf n

/-- In a block with the invariant, the port admits a request exactly under the conditions of `keepsProtocol`. -/
theorem Inv.requestFault_eq_none_iff {s : State} (hs : Inv s) :
    requestFault s = none ↔ s.wasReset = true ∧ s.cyclesLeft = 0 := by
  rw [Machine.requestFault_eq_none_iff]
  refine and_congr_right fun hreset => ?_
  rw [hs.busyIsInFlight hreset]
  cases hf : s.inFlight with
  | none => simp only [Option.isSome_none, cyclesLeft_of_idle hf]
  | some f =>
    obtain ⟨hpos, -⟩ := hs.latencyBound f hf
    rw [cyclesLeft_of_inFlight hf]
    exact iff_of_false nofun (by omega)

theorem not_runs_of_fault {s : State} {f : Fault} {n : Nat} (h : step s = .fault f) :
    ¬ ∃ t, run (n + 1) s = .next t := by
  rintro ⟨t, hrun⟩
  cases (run_succ_of_fault h).symm.trans hrun

/-- The queue of a block with the invariant, by induction: one action at the head, then what it leaves. -/
theorem Inv.runs_iff_keepsProtocol {q : List HostEvent} {s : State} (hs : Inv s) (hq : s.hostQueue = q) :
    (∃ t, run q.length s = .next t) ↔ keepsProtocol s.wasReset s.cyclesLeft q := by
  induction q generalizing s with
  | nil => exact iff_of_true ⟨s, rfl⟩ trivial
  | cons e q ih =>
    have hnext : ∀ {wasReset left}, StepLeaves s q wasReset left →
        ((∃ u, run (q.length + 1) s = .next u) ↔ keepsProtocol wasReset left q) := by
      rintro _ _ ⟨t, hstep, htq, rfl, rfl⟩
      rw [run_succ_of_next hstep]
      exact ih (everyStepKeepsTheInvariant s t hs hstep) htq
    have hissue : ∀ {w left}, (e = .request w ∨ e = .present w) →
        (requestFault s = none → StepLeaves s q s.wasReset left) →
        ((∃ u, run (q.length + 1) s = .next u) ↔
          s.wasReset = true ∧ s.cyclesLeft = 0 ∧ keepsProtocol s.wasReset left q) := by
      intro w left he hleaves
      rw [← and_assoc, ← hs.requestFault_eq_none_iff]
      cases hf : requestFault s with
      | some f => exact iff_of_false (not_runs_of_fault (step_of_fault hq he hf)) nofun
      | none => exact (hnext (hleaves hf)).trans (and_iff_right rfl).symm
    cases e with
    | rst => exact hnext (step_rst_leaves hq)
    | request w =>
      refine hissue (.inl rfl) fun hf => ?_
      obtain ⟨-, hidle⟩ := hs.requestFault_eq_none_iff.mp hf
      rw [← hidle]
      exact step_request_leaves hq hf
    | present w => exact hissue (.inr rfl) (step_present_leaves hq)
    | clock => exact hnext (step_clock_leaves hq)
    | sendCommand c => exact hnext (step_sendCommand_leaves hq)

/-- Settles O51: the queue's own case of the induction over every queue. -/
theorem runsStopExactlyWhenTheProtocolIsBroken : Obligations.RunsStopExactlyWhenTheProtocolIsBroken :=
  fun _ hs => hs.runs_iff_keepsProtocol rfl

end Sys2Proof.Machine
end

section
/-! Reset, and what MEAS holds across a list of instructions (70_reset_and_hazards.md R180, R182, R185, R186, R190). -/

namespace Sys2Proof.Machine

/-- Settles O21: each command's arm, then the port's side, which no command word passes. -/
theorem sensorCommandsLeaveTheBlockAlone : Obligations.SensorCommandsLeaveTheBlockAlone :=
  ⟨fun _ => ⟨rfl, rfl, rfl, rfl, rfl, rfl⟩,
    fun _ w _ hq _ => (step_sendCommand hq).trans (sendCommand_eq w _)⟩

/-- Settles O41: `applyReset` takes every register from `State.reset`. -/
theorem resetSetsEveryRegister : Obligations.ResetSetsEveryRegister :=
  fun _ _ hq => ⟨_, step_of_cons hq, rfl, rfl, rfl, rfl, rfl, rfl⟩

/-- Settles O50: the reset state is what `rst` makes of itself. -/
theorem resetSatisfiesTheInvariant : Obligations.ResetSatisfiesTheInvariant :=
  Inv.applyReset State.reset

/-- No load of six bytes stands in the list: none that succeeds (41_convert.md R124). -/
def NoSuccessfulLoad (is : List Instr) : Prop :=
  ∀ e0 e1 e2 e3 e4 e5, Instr.measLoad 6 e0 e1 e2 e3 e4 e5 ∉ is

theorem NoSuccessfulLoad.of_cons {i : Instr} {is : List Instr} (h : NoSuccessfulLoad (i :: is)) :
    NoSuccessfulLoad is :=
  fun e0 e1 e2 e3 e4 e5 hmem => h e0 e1 e2 e3 e4 e5 (List.mem_cons_of_mem i hmem)

theorem NoSuccessfulLoad.measAfter_head {i : Instr} {is : List Instr} (h : NoSuccessfulLoad (i :: is)) (m : Meas) :
    measAfter m i = m := by
  obtain hkept | ⟨d0, d1, d2, d3, d4, d5, rfl, -⟩ := measAfter_cases m i
  · exact hkept
  · exact absurd List.mem_cons_self (h d0 d1 d2 d3 d4 d5)

/-- MEAS keeps its bytes across instructions without a successful load (10_state.md R24). -/
theorem execAll_keeps_meas {is : List Instr} (h : NoSuccessfulLoad is) (s : State) :
    ∃ t, execAll is s = .next t ∧ t.meas = s.meas := by
  induction is generalizing s with
  | nil => exact ⟨s, rfl, rfl⟩
  | cons i is ih =>
    obtain ⟨t, hexec, hmeas⟩ := ih h.of_cons (stateAfter i s)
    exact ⟨t, (execAll_cons i is s).trans hexec, hmeas.trans (h.measAfter_head s.meas)⟩

/-- Settles O39: the load's bytes are still in MEAS, which is all that the accessors read. -/
theorem accessorsSeeTheLatestLoad : Obligations.AccessorsSeeTheLatestLoad := by
  intro is s d0 d1 d2 d3 d4 d5 hloads
  obtain ⟨t, hexec, hkept⟩ := execAll_keeps_meas hloads (stateAfter (.measLoad 6 d0 d1 d2 d3 d4 d5) s)
  have hmeas : t.meas = ⟨d0, d1, d2, d3, d4, d5⟩ := hkept
  refine ⟨t, (execAll_cons _ is s).trans hexec, hmeas, ?temp, ?hum⟩
  case temp => rw [exec_tempGet, hmeas]; rfl
  case hum => rw [exec_humGet, hmeas]; rfl

/-- The checksum of two zero bytes is not zero, so no group of a reset MEAS verifies (R185). -/
theorem crc8_zeros_ne_zero : crc8 [0x00#8, 0x00#8] ≠ 0x00#8 := by
  have hfirst : crcByte crcInitial 0x00#8 = 0xAC#8 := by decide
  have hsecond : crcByte 0xAC#8 0x00#8 = 0x81#8 := by decide
  rw [crc8_pair, hfirst, hsecond]
  decide

/-- Settles O40: MEAS is still zero, and both accessors find a mismatch in it. -/
theorem nothingMeasuredIsAMismatch : Obligations.NothingMeasuredIsAMismatch := by
  intro is s hreset hloads
  obtain ⟨t, hexec, hkept⟩ := execAll_keeps_meas hloads s
  have hzero : t.meas = Meas.zero := hkept.trans hreset
  obtain ⟨-, htemp, -⟩ := tempGetValidatesThenConverts
  obtain ⟨-, hhum, -⟩ := humGetValidatesThenConverts
  exact ⟨t, hexec, htemp t (by rw [hzero]; exact crc8_zeros_ne_zero), hhum t (by rw [hzero]; exact crc8_zeros_ne_zero)⟩

end Sys2Proof.Machine
end

section
/-! The completion of an accepted request, and why OP_LATENCY is not observable (00_scope.md R9, 10_state.md R31,
70_reset_and_hazards.md R194): a request presented and waited for, and the same request as one atomic step, answer with the
same pair and leave the same block. -/

namespace Sys2Proof.Machine

theorem Ready.withHostQueue {s : State} (hs : Ready s) (q : List HostEvent) : Ready { s with hostQueue := q } :=
  ⟨hs.wasReset, hs.idle, hs.nothingInFlight⟩

/-- A ready block runs a request word to a ready block, and what the host does next takes no part in it. -/
theorem runRequest_of_ready {s : State} (hs : Ready s) (w : Req) :
    ∃ t, Ready t ∧ ∀ q, runRequest w { s with hostQueue := q } = .next { t with hostQueue := q } := by
  obtain ⟨i, -, hi⟩ | herr := runRequest_cases w
  · exact ⟨stateAfter i s, Ready.stateAfter hs i s.hostQueue, fun q => hi _⟩
  · exact ⟨{ s with err := 0x03#8 }, ⟨hs.wasReset, hs.idle, hs.nothingInFlight⟩, fun q => herr _⟩

/-- The block at the completion of a request, before the request's writes: ready where there has been a reset. -/
theorem ready_at_completion {s : State} (h : s.wasReset = true) : Ready { s with busy := false, inFlight := none } :=
  ⟨h, rfl, rfl⟩

/-- The cycles of an idle host run the request in flight when its last one has passed. -/
theorem run_of_inFlight {s : State} {w : Req} {n : Nat} (hq : s.hostQueue = [])
    (hs : s.inFlight = some ⟨w, n + 1⟩) :
    run (n + 1) s = runRequest w { s with busy := false, inFlight := none } := by
  have hlast : run n s = .next { s with inFlight := some ⟨w, 1⟩ } :=
    run_of_waiting n (le_refl 1) hq (by rw [hs, Nat.add_comm])
  calc run (n + 1) s = step { s with inFlight := some ⟨w, 1⟩ } := (run_add_of_next 1 hlast).trans (run_one _)
    _ = clockCycle { s with inFlight := some ⟨w, 1⟩ } := step_of_empty hq
    _ = runRequest w { s with busy := false, inFlight := none } :=
        clockCycle_of_last (f := ⟨w, 1⟩) rfl (le_refl 1)

/-- Settles O46: the invariant gives the request in flight and bounds its cycles. -/
theorem acceptedRequestsComplete : Obligations.AcceptedRequestsComplete := by
  intro s hs hreset hbusy hq
  obtain ⟨⟨w, left⟩, hf⟩ := Option.isSome_iff_exists.mp ((hs.busyIsInFlight hreset).symm.trans hbusy)
  obtain ⟨hpos, hbound⟩ := hs.latencyBound _ hf
  obtain ⟨n, rfl⟩ := Nat.exists_eq_add_of_le' hpos
  obtain ⟨t, ht, hrun⟩ := runRequest_of_ready (ready_at_completion hreset) w
  have hdone : runRequest w { s with busy := false, inFlight := none } = .next { t with hostQueue := [] } := by
    rw [← hrun [], ← hq]
  exact ⟨n + 1, _, hbound, (run_of_inFlight hq hf).trans hdone, ht.withHostQueue [], rfl⟩

theorem completesRequest_of_request {s : State} {w : Req} {q : List HostEvent} (hs : Ready s)
    (hq : s.hostQueue = .request w :: q) : completesRequest s = true := by
  simp only [completesRequest, hq, requestFault_of_ready hs, Option.isNone_none]

theorem completesRequest_of_present {s : State} {w : Req} {q : List HostEvent} (hq : s.hostQueue = .present w :: q) :
    completesRequest s = false := by
  simp only [completesRequest, hq]

theorem completesRequest_of_clock {s : State} {f : InFlight} {q : List HostEvent} (hq : s.hostQueue = .clock :: q)
    (hf : s.inFlight = some f) : completesRequest s = decide (f.cyclesLeft ≤ 1) := by
  simp only [completesRequest, hq, hf]

/-- `m` steps lead from `s` to `t`, and the host observes `pairs` on the way (00_scope.md R9). -/
structure RunObserves (m : Nat) (s : State) (pairs : List (Half × Byte)) (t : State) : Prop where
  /-- The steps all run, and end in `t`. -/
  run_eq : run m s = .next t
  /-- What is observed after them follows their pairs. -/
  observed_eq : ∀ n, observed (m + n) s = pairs ++ observed n t

theorem RunObserves.refl (s : State) : RunObserves 0 s [] s where
  run_eq := rfl
  observed_eq n := by rw [Nat.zero_add, List.nil_append]

theorem RunObserves.trans {m n : Nat} {s t u : State} {ps qs : List (Half × Byte)} (h : RunObserves m s ps t)
    (h' : RunObserves n t qs u) : RunObserves (m + n) s (ps ++ qs) u where
  run_eq := (run_add_of_next n h.run_eq).trans h'.run_eq
  observed_eq k := by rw [Nat.add_assoc, h.observed_eq, h'.observed_eq, List.append_assoc]

/-- A run's own observation is that of as many steps as it has. -/
theorem RunObserves.observed_self {m : Nat} {s t : State} {pairs : List (Half × Byte)} (h : RunObserves m s pairs t) :
    observed m s = pairs :=
  (h.observed_eq 0).trans (List.append_nil pairs)

theorem runObserves_of_step {s t : State} (h : step s = .next t) :
    RunObserves 1 s (if completesRequest s then [(t.result, t.err)] else []) t where
  run_eq := (run_one s).trans h
  observed_eq n := by rw [Nat.add_comm]; simp only [observed, h]

theorem runObserves_of_quiet_step {s t : State} (h : step s = .next t) (hquiet : completesRequest s = false) :
    RunObserves 1 s [] t := by
  simpa only [hquiet, Bool.false_eq_true, if_false] using runObserves_of_step h

theorem runObserves_of_completing_step {s t : State} (h : step s = .next t) (hcompletes : completesRequest s = true) :
    RunObserves 1 s [(t.result, t.err)] t := by
  simpa only [hcompletes, if_true] using runObserves_of_step h

/-- `k` clock cycles of the host, short of completion, show the host nothing. -/
theorem runObserves_clocks_of_waiting {s : State} {w : Req} {q : List HostEvent} (k : Nat)
    (hq : s.hostQueue = List.replicate k .clock ++ q) (hs : s.inFlight = some ⟨w, k + 1⟩) :
    RunObserves k s [] { s with hostQueue := q, inFlight := some ⟨w, 1⟩ } := by
  induction k generalizing s with
  | zero =>
    have hqueue : q = s.hostQueue := hq.symm
    have hflight : some ⟨w, 1⟩ = s.inFlight := hs.symm
    rw [hqueue, hflight]
    exact .refl s
  | succ k ih =>
    have hwaiting : ¬ k + 1 + 1 ≤ 1 := by omega
    have hcycle := (step_of_cons hq).trans (clockCycle_of_waiting hs hwaiting)
    have hquiet := (completesRequest_of_clock hq hs).trans (decide_eq_false hwaiting)
    rw [Nat.add_comm]
    exact (runObserves_of_quiet_step hcycle hquiet).trans (ih rfl rfl)

/-- An atomic request shows the host the pair at its completion. -/
theorem runObserves_request {s t : State} {w : Req} {q : List HostEvent} (hs : Ready s)
    (ht : runRequest w { s with hostQueue := q } = .next t) :
    RunObserves 1 { s with hostQueue := .request w :: q } [(t.result, t.err)] t :=
  have hready := hs.withHostQueue (.request w :: q)
  runObserves_of_completing_step ((step_request_of_ready hready rfl).trans ht) (completesRequest_of_request hready rfl)

/-- The last cycle of a request in flight shows the host the pair at its completion. -/
theorem runObserves_last_clock {s t : State} {w : Req} {q : List HostEvent} (hq : s.hostQueue = .clock :: q)
    (hf : s.inFlight = some ⟨w, 1⟩)
    (ht : runRequest w { s with hostQueue := q, busy := false, inFlight := none } = .next t) :
    RunObserves 1 s [(t.result, t.err)] t :=
  have hcycle := (step_of_cons hq).trans (clockCycle_of_last (s := { s with hostQueue := q }) hf (le_refl 1))
  runObserves_of_completing_step (hcycle.trans ht) (completesRequest_of_clock hq hf)

/-- A request that the host presents, and the clock cycles in which it waits for the completion. -/
def presentAndWait (w : Req) : List HostEvent := .present w :: List.replicate Config.opLatency .clock

/-- A request presented and waited for shows the host the same pair, and nothing before it. -/
theorem runObserves_presentAndWait {s t : State} {w : Req} {q : List HostEvent} (hs : Ready s)
    (ht : runRequest w { s with hostQueue := q } = .next t) :
    RunObserves (1 + Config.opLatency) { s with hostQueue := presentAndWait w ++ q } [(t.result, t.err)] t := by
  have haccept := runObserves_of_quiet_step
    (step_present_of_ready (hs.withHostQueue (presentAndWait w ++ q)) rfl) (completesRequest_of_present rfl)
  have hclocks : List.replicate Config.opLatency HostEvent.clock ++ q =
      List.replicate Config.opLatencyMinusOne .clock ++ .clock :: q := by
    rw [Config.opLatency, List.replicate_succ', List.append_assoc, List.singleton_append]
  have hwait := runObserves_clocks_of_waiting (s := acceptRequest w { s with
    hostQueue := List.replicate Config.opLatency .clock ++ q }) Config.opLatencyMinusOne hclocks rfl
  have hidle : { s with hostQueue := q, busy := false, inFlight := none } = { s with hostQueue := q } := by
    rw [← hs.idle, ← hs.nothingInFlight]
  exact haccept.trans (hwait.trans (runObserves_last_clock rfl rfl ((congrArg (runRequest w) hidle).trans ht)))

/-- By induction on the requests: both ways of issuing them show the host the same pairs, one per request, and end in the
same state (R194). -/
theorem runObserves_same_of_ready (ws : List Req) {s : State} (hs : Ready s) :
    ∃ pairs t, pairs.length = ws.length ∧
      RunObserves ws.length { s with hostQueue := ws.map .request } pairs t ∧
      RunObserves (ws.length * (1 + Config.opLatency)) { s with hostQueue := ws.flatMap presentAndWait } pairs t := by
  induction ws generalizing s with
  | nil => exact ⟨[], _, rfl, .refl _, by rw [List.length_nil, Nat.zero_mul]; exact .refl _⟩
  | cons w ws ih =>
    obtain ⟨u, hu, hrun⟩ := runRequest_of_ready hs w
    obtain ⟨pairs, t, hlength, hatomic, hpresented⟩ := ih hu
    refine ⟨(u.result, u.err) :: pairs, t, congrArg (· + 1) hlength, ?atomic, ?presented⟩
    case atomic =>
      rw [List.length_cons, Nat.add_comm]
      exact (runObserves_request hs (hrun _)).trans hatomic
    case presented =>
      rw [List.length_cons, Nat.succ_mul, Nat.add_comm]
      exact (runObserves_presentAndWait hs (hrun _)).trans hpresented

/-- Settles O48: the common pairs and final state of the two ways. -/
theorem latencyIsNotObservable : Obligations.LatencyIsNotObservable := by
  intro ws s hs
  obtain ⟨pairs, t, hlength, hatomic, hpresented⟩ := runObserves_same_of_ready ws hs
  refine ⟨hpresented.observed_self.trans hatomic.observed_self.symm, ?_, hpresented.run_eq.trans hatomic.run_eq.symm⟩
  rw [hatomic.observed_self, hlength]

end Sys2Proof.Machine
end
